-- ==== Sys2Proof/Word.lean ====
section
/-! DEFINITION. The word types of the serial protocol dispatcher and the plainest arithmetic on them
(spec/00_scope.md rules R10, R11 and R13). -/

namespace Sys2Proof

/-- An 8-bit byte: a frame byte, a FIFO byte, a code (R13). -/
abbrev Byte := BitVec 8

/-- A 16-bit frame field (R88). -/
abbrev Half := BitVec 16

/-- A 32-bit value: a time in microseconds, a baud, a handle, an operand (R13). -/
abbrev Word32 := BitVec 32

/-- A 40-bit host command word or result word (R80). -/
abbrev Word40 := BitVec 40

/-- `lo8(v)` of R11. -/
def lo8 (v : Half) : Byte := v.setWidth 8

/-- `hi8(v)` of R11. -/
def hi8 (v : Half) : Byte := (v >>> 8).setWidth 8

end Sys2Proof
end

