-- ==== Sys2Proof/Config.lean ====
section
/-! DEFINITION. The implementation parameters of spec/00_scope.md rule R8, Table P. A row the source
fixes is a constant; every other row is a field of `Config` whose default is the table's value. -/

namespace Sys2Proof

/-- `HEADER_ORDER` (R87, 92 D9). -/
inductive HeaderOrder where
  | doc
  | hott
deriving DecidableEq, Repr

/-- `COORD_SIGN_MODE` (R113, R114, 92 D16). -/
inductive CoordSignMode where
  | magnitude
  | signedTrunc
deriving DecidableEq, Repr

/-- `REFRESH_POLICY` (R110, 92 D21). -/
inductive RefreshPolicy where
  | literal
  | gate
  | double
deriving DecidableEq, Repr

/-- `START_BYTE`, fixed by the source (Table P). -/
def startByte : Byte := 0x7C#8

/-- `STOP_BYTE`, fixed by the source (Table P). -/
def stopByte : Byte := 0x7D#8

/-- `SAT_3D_MIN`, fixed by the source (Table P). -/
def sat3dMin : Byte := 5#8

/-- `DEG_DIVIDER`, fixed by the source (Table P). -/
def degDivider : Nat := 10000000

/-- The parameters of Table P that a machine fixes once. `Machine.configLegal` is the constraint
R9 puts on them. -/
structure Config where
  /-- `SETTLE_US`. -/
  settleUs : Word32
  /-- `INTER_BYTE_US`. -/
  interByteUs : Word32
  /-- `REFRESH_INTERVAL_US`. -/
  refreshIntervalUs : Word32
  /-- `BINARY_MODE_ID`. -/
  binaryModeId : Byte
  /-- `GPS_ADDR`. -/
  gpsAddr : Byte
  /-- `EAM_ADDR`. -/
  eamAddr : Byte
  /-- `GPS_CLASS_ID`. -/
  gpsClassId : Byte
  /-- `EAM_CLASS_ID`. -/
  eamClassId : Byte
  /-- `GPS_TEXT_ID`. -/
  gpsTextId : Byte
  /-- `EAM_TEXT_ID`. -/
  eamTextId : Byte
  /-- `BAUD`. -/
  baud : Word32
  /-- `GPS_LEN`, 8 bits wide (Table P). -/
  gpsLen : Byte
  /-- `EAM_LEN`, 8 bits wide (Table P). -/
  eamLen : Byte
  /-- `ALT_OFFSET`. -/
  altOffset : Half
  /-- `FIX_CHAR_NONE`. -/
  fixCharNone : Byte
  /-- `FIX_CHAR_2D`. -/
  fixChar2d : Byte
  /-- `FIX_CHAR_3D`. -/
  fixChar3d : Byte
  /-- `FIX_CHAR_DGPS`: no rule writes it (R112). -/
  fixCharDgps : Byte
  /-- `HEADER_ORDER`. -/
  headerOrder : HeaderOrder
  /-- `COORD_SIGN_MODE`. -/
  coordSignMode : CoordSignMode
  /-- `GPS_NOFIX_HOLD`. -/
  gpsNofixHold : Bool
  /-- `REFRESH_POLICY`. -/
  refreshPolicy : RefreshPolicy
  /-- `FUNCTION_TAG`: an opaque value, compared only for equality. -/
  functionTag : Word32
  /-- `RX_FIFO_CAPACITY`: OPEN, at least 3. -/
  rxFifoCapacity : Nat
  /-- `TICK_MAX_INTERVAL_US`: OPEN, below 2^31; a duty of the host that no rule of the block reads. -/
  tickMaxIntervalUs : Nat
  /-- `PROVIDER_DRAINS_TX`. -/
  providerDrainsTx : Bool
deriving DecidableEq, Repr

/-- The defaults of Table P. DESIGN CHOICE for the three rows the table leaves OPEN or opaque, unsafe:
`RX_FIFO_CAPACITY` = 256 and `TICK_MAX_INTERVAL_US` = 2^31 - 1 (log 12), `FUNCTION_TAG` = 1 (log 13).
The other rows are the table's own. -/
def Config.default : Config where
  settleUs := 4000#32
  interByteUs := 3000#32
  refreshIntervalUs := 200000#32
  binaryModeId := 0x80#8
  gpsAddr := 0x8A#8
  eamAddr := 0x8E#8
  gpsClassId := 0x8A#8
  eamClassId := 0x8E#8
  gpsTextId := 0xA0#8
  eamTextId := 0xE0#8
  baud := 19200#32
  gpsLen := 44#8
  eamLen := 44#8
  altOffset := 500#16
  fixCharNone := 0x2D#8
  fixChar2d := 0x32#8
  fixChar3d := 0x33#8
  fixCharDgps := 0x44#8
  headerOrder := .doc
  coordSignMode := .magnitude
  gpsNofixHold := false
  refreshPolicy := .gate
  functionTag := 1#32
  rxFifoCapacity := 256
  tickMaxIntervalUs := 2147483647
  providerDrainsTx := true

end Sys2Proof
end

