-- ==== Sys2Proof/Syntax.lean ====
section
/-! DEFINITION. The instructions: one constructor for each row of spec/opcode_table.json (Tables H, Q,
R2 and U of spec/30_encoding.md), and the encoded things a decoder reads. -/

namespace Sys2Proof

/-- A response frame kind: 0 = GPS, 1 = Battery/EAM (Table S, `CUR_FRAME`). -/
inductive FrameKind where
  | gps
  | eam
deriving DecidableEq, Repr

/-- DISCARD_RX's operand (R157): 0 = noise, 1 = end of send. -/
inductive DiscardReason where
  | noise
  | endOfSend
deriving DecidableEq, Repr

/-- The rows of spec/opcode_table.json. A host command carries its whole operand field, so that the
command's own check of the must-be-0 bits (R150, R154, R218, R219) has the bits it tests. -/
inductive Instr where
  /-- `INIT cfg` (R210). -/
  | init (cfg : Word32)
  /-- `ACQUIRE` (R150); the operand must be 0. -/
  | acquire (op : Word32)
  /-- `RELEASE` (R154); the operand must be 0. -/
  | release (op : Word32)
  /-- `TICK now` (R212). -/
  | tick (now : Word32)
  /-- `QUERY_BAUD` (R218); the operand must be 0. -/
  | queryBaud (op : Word32)
  /-- `OBS_READ index` (R219); the index is bits 15:0, bits 31:16 must be 0. -/
  | obsRead (op : Word32)
  /-- Request row `REQ_GPS` (Table Q). -/
  | reqGps
  /-- Request row `REQ_EAM` (Table Q). -/
  | reqEam
  /-- Request row `REQ_BIN_OTHER` (Table Q): binary mode, any other address. -/
  | reqBinOther (address : Byte)
  /-- Request row `REQ_OTHER` (Table Q): any other request-id. -/
  | reqOther (requestId address : Byte)
  /-- Response row `RESP_GPS` (Table R2). -/
  | respGps
  /-- Response row `RESP_EAM` (Table R2). -/
  | respEam
  /-- Sub-operation 0 (R110). -/
  | refresh
  /-- Sub-operation 1 (R170). -/
  | detect
  /-- Sub-operation 2 (R190). -/
  | beginSend (k : FrameKind)
  /-- Sub-operation 3 (R193). -/
  | advance
  /-- Sub-operation 4 (R155). -/
  | switchTx
  /-- Sub-operation 5 (R156). -/
  | switchRx
  /-- Sub-operation 6 (R157). -/
  | discardRx (reason : DiscardReason)
deriving DecidableEq, Repr

/-- One encoded thing, by the table's format. Only `host` is an interface of the block (R80); the other
three are the model's bench port, on which one row is run alone (log 2). -/
inductive Code where
  /-- A host command word: opcode in bits 39:32, operand in bits 31:0 (R80). -/
  | host (w : Word40)
  /-- A request frame as `REQ = {requestId, address}` (R83). -/
  | request (w : BitVec 16)
  /-- The bytes at offsets 0, 1, 2 of a response, offset 0 in the high byte (Table R2). -/
  | response (w : BitVec 24)
  /-- A sub-operation number (Table U) and its one-bit operand (DESIGN CHOICE, safe: R90 gives no
  encoding, log 5): the kind for BEGIN_SEND, the reason for DISCARD_RX, 0 for the others. -/
  | subop (number : BitVec 4) (arg : BitVec 1)
deriving DecidableEq, Repr

end Sys2Proof
end

