-- ==== Sys2Proof/WellFormed.lean ====
section
/-! DEFINITION. Which instructions are legal under a configuration: the must-be-0 operand bits of Table H
and the "first match wins" order of Table Q (spec/30_encoding.md rules R82 and R83). -/

namespace Sys2Proof

/-- `i` is what some legal encoding stands for under `cfg`: a host operand sets no bit that Table H says
must be 0 (R82), and a request row is not shadowed by an earlier row of Table Q (R83). Where the two response
headers coincide `RESP_EAM` has no encoding of its own, because the decoder takes the GPS row (DESIGN CHOICE,
unsafe, log 29: Table R2 gives no match order). -/
def wellFormed (cfg : Config) : Instr → Bool
  | .init _ => true
  | .acquire op => op == 0#32
  | .release op => op == 0#32
  | .tick _ => true
  | .queryBaud op => op == 0#32
  | .obsRead op => op.extractLsb' 16 16 == 0#16
  | .reqGps => true
  | .reqEam => cfg.eamAddr != cfg.gpsAddr
  | .reqBinOther address => address != cfg.gpsAddr && address != cfg.eamAddr
  | .reqOther requestId _ => requestId != cfg.binaryModeId
  | .respGps => true
  | .respEam =>
    cfg.eamClassId != cfg.gpsClassId ||
      (cfg.headerOrder == .doc && cfg.eamTextId != cfg.gpsTextId)
  | .refresh => true
  | .detect => true
  | .beginSend _ => true
  | .advance => true
  | .switchTx => true
  | .switchRx => true
  | .discardRx _ => true

end Sys2Proof
end

