-- ==== Sys2Proof/Decode.lean ====
section
/-! DEFINITION. The decoder, total on every encoded thing and rejecting by name, and the encoder written
from the same tables (spec/30_encoding.md Tables H, Q, R2 and U). -/

namespace Sys2Proof

/-- Why the decoder gives no legal instruction. -/
inductive Reject where
  /-- A host word whose opcode Table H reserves (R82). -/
  | reservedOpcode (opcode : Byte)
  /-- A host word with an operand bit set that Table H says must be 0 (R82): the command it names, with
  its operand as it stands. -/
  | mustBeZero (i : Instr)
  /-- Header bytes that are no row of Table R2. -/
  | unknownHeader (w : BitVec 24)
  /-- A sub-operation number that Table U does not list. -/
  | reservedSubop (number : BitVec 4)
  /-- A nonzero operand of a sub-operation that has none. -/
  | subopOperand (number : BitVec 4)
deriving DecidableEq, Repr

/-- What the decoder answers. -/
inductive Decoded where
  | ok (i : Instr)
  | rejected (r : Reject)
deriving DecidableEq, Repr

/-- The opcode of a command word: bits 39:32 (R80). -/
def opcodeOf (w : Word40) : Byte := w.extractLsb' 32 8

/-- The operand of a command word: bits 31:0 (R80). -/
def operandOf (w : Word40) : Word32 := w.extractLsb' 0 32

/-- Table H: the command an opcode names, with its operand field (R81). -/
def hostCommand (opcode : Byte) (op : Word32) : Option Instr :=
  if opcode = 0x01#8 then some (.init op)
  else if opcode = 0x02#8 then some (.acquire op)
  else if opcode = 0x03#8 then some (.release op)
  else if opcode = 0x04#8 then some (.tick op)
  else if opcode = 0x05#8 then some (.queryBaud op)
  else if opcode = 0x06#8 then some (.obsRead op)
  else none

/-- Decode a host command word (R80 to R82). -/
def decodeHost (cfg : Config) (w : Word40) : Decoded :=
  match hostCommand (opcodeOf w) (operandOf w) with
  | none => .rejected (.reservedOpcode (opcodeOf w))
  | some i => if wellFormed cfg i then .ok i else .rejected (.mustBeZero i)

/-- Table Q, first match wins (R83). Every request matches a row. -/
def decodeRequest (cfg : Config) (requestId address : Byte) : Instr :=
  if requestId = cfg.binaryModeId then
    if address = cfg.gpsAddr then .reqGps
    else if address = cfg.eamAddr then .reqEam
    else .reqBinOther address
  else .reqOther requestId address

/-- The bytes at offsets 0, 1 and 2 of a response of kind `k` (R86, R87, Table R2): under `HOTT` offset 2
is the warning byte, which is 0. -/
def responseHeader (cfg : Config) (k : FrameKind) : BitVec 24 :=
  let classId := match k with | .gps => cfg.gpsClassId | .eam => cfg.eamClassId
  let textId := match k with | .gps => cfg.gpsTextId | .eam => cfg.eamTextId
  let third := match cfg.headerOrder with | .doc => textId | .hott => 0x00#8
  (startByte ++ classId ++ third : BitVec 24)

/-- Decode the header bytes of a response (Table R2). Table R2 gives its rows no match order; where the two
rows' headers coincide the GPS row is taken (DESIGN CHOICE, unsafe, log 29). -/
def decodeResponse (cfg : Config) (w : BitVec 24) : Decoded :=
  if w = responseHeader cfg .gps then .ok .respGps
  else if w = responseHeader cfg .eam then .ok .respEam
  else .rejected (.unknownHeader w)

/-- The kind a one-bit operand stands for (Table S, `CUR_FRAME`: 0 = GPS, 1 = EAM). -/
def kindOfBit (b : BitVec 1) : FrameKind := if b = 0#1 then .gps else .eam

/-- The reason a one-bit operand stands for (R157: 0 = noise, 1 = end of send). -/
def reasonOfBit (b : BitVec 1) : DiscardReason := if b = 0#1 then .noise else .endOfSend

/-- The bit of a kind (Table S). -/
def bitOfKind : FrameKind → BitVec 1
  | .gps => 0#1
  | .eam => 1#1

/-- The bit of a reason (R157). -/
def bitOfReason : DiscardReason → BitVec 1
  | .noise => 0#1
  | .endOfSend => 1#1

/-- A sub-operation that takes no operand: its operand bit must be 0. -/
def plainSubop (number : BitVec 4) (arg : BitVec 1) (i : Instr) : Decoded :=
  if arg = 0#1 then .ok i else .rejected (.subopOperand number)

/-- Table U. -/
def decodeSubop (number : BitVec 4) (arg : BitVec 1) : Decoded :=
  if number = 0#4 then plainSubop number arg .refresh
  else if number = 1#4 then plainSubop number arg .detect
  else if number = 2#4 then .ok (.beginSend (kindOfBit arg))
  else if number = 3#4 then plainSubop number arg .advance
  else if number = 4#4 then plainSubop number arg .switchTx
  else if number = 5#4 then plainSubop number arg .switchRx
  else if number = 6#4 then .ok (.discardRx (reasonOfBit arg))
  else .rejected (.reservedSubop number)

/-- The decoder. -/
def decode (cfg : Config) : Code → Decoded
  | .host w => decodeHost cfg w
  | .request w => .ok (decodeRequest cfg (w.extractLsb' 8 8) (w.extractLsb' 0 8))
  | .response w => decodeResponse cfg w
  | .subop number arg => decodeSubop number arg

/-- A command word (R80). -/
def hostWord (opcode : Byte) (op : Word32) : Code := .host (opcode ++ op : BitVec 40)

/-- A request frame (R83). -/
def requestWord (requestId address : Byte) : Code := .request (requestId ++ address : BitVec 16)

/-- The encoder: Tables H, Q, R2 and U. -/
def encode (cfg : Config) : Instr → Code
  | .init c => hostWord 0x01#8 c
  | .acquire op => hostWord 0x02#8 op
  | .release op => hostWord 0x03#8 op
  | .tick now => hostWord 0x04#8 now
  | .queryBaud op => hostWord 0x05#8 op
  | .obsRead op => hostWord 0x06#8 op
  | .reqGps => requestWord cfg.binaryModeId cfg.gpsAddr
  | .reqEam => requestWord cfg.binaryModeId cfg.eamAddr
  | .reqBinOther address => requestWord cfg.binaryModeId address
  | .reqOther requestId address => requestWord requestId address
  | .respGps => .response (responseHeader cfg .gps)
  | .respEam => .response (responseHeader cfg .eam)
  | .refresh => .subop 0#4 0#1
  | .detect => .subop 1#4 0#1
  | .beginSend k => .subop 2#4 (bitOfKind k)
  | .advance => .subop 3#4 0#1
  | .switchTx => .subop 4#4 0#1
  | .switchRx => .subop 5#4 0#1
  | .discardRx r => .subop 6#4 (bitOfReason r)

/-- The encoded thing that `nbits` bits `w` of the opcode table stand for: 4 bits (one byte) a
sub-operation, whose operand bit is the bit above the number; 16 bits a request; 24 bits a response
header; 40 bits a host command word. -/
def tableCode (nbits w : Nat) : Code :=
  if nbits ≤ 8 then .subop (BitVec.ofNat 4 w) (BitVec.ofNat 1 (w / 16))
  else if nbits ≤ 16 then .request (BitVec.ofNat 16 w)
  else if nbits ≤ 32 then .response (BitVec.ofNat 24 w)
  else .host (BitVec.ofNat 40 w)

/-- The instruction the decoder reads from a row of spec/opcode_table.json whose bits are `w`, under the
defaults of Table P (the table's own values). -/
def decodeTableWord (nbits w : Nat) : Option Instr :=
  match decode Config.default (tableCode nbits w) with
  | .ok i => some i
  | .rejected _ => none

end Sys2Proof
end

