-- ==== Sys2Proof/Machine/State.lean ====
section
/-! DEFINITION. The state as plain data: the block's registers (spec/10_state.md Table S), the frame
buffers (R37), the trace (R44), the state of the other agents (R45), and the model's own fields. -/

namespace Sys2Proof.Machine

/-- A port's direction: 0 = RX (receive), 1 = TX (transmit) (Table S, `PORT_MODE`). -/
inductive PortMode where
  | rx
  | tx
deriving DecidableEq, Repr

/-- The event names of spec/30_encoding.md Table V. -/
inductive EventName where
  | refresh
  | arm
  | discard
  | consume
  | beginSend
  | beginRejected
  | txByte
  | txCksum
  | sendDone
  | mode
  | acquire
  | release
  | init
  | fault
deriving DecidableEq, Repr

/-- One trace record `(code, a, b, t)` (R44). -/
structure Event where
  name : EventName
  a : Byte
  b : Byte
  t : Word32
deriving DecidableEq, Repr

/-- The fault codes of spec/60_exceptions.md Table F. These are the BLOCK's faults: raising one is a
next state (R241). -/
inductive FaultCode where
  | illegalCommand
  | notInitialized
  | alreadyAcquired
  | notAcquired
  | acquireFailed
  | releaseWhileSending
  | initWhileAcquired
deriving DecidableEq, Repr

/-- The result status codes of spec/30_encoding.md Table K. -/
inductive Status where
  | ok
  | faulted
  | faultRaised
  | badIndex
deriving DecidableEq, Repr

/-- The telemetry source's VehicleSnapshot (R68, Table N). -/
structure Snapshot where
  fix : Bool
  numSat : Byte
  /-- Signed, 1e-7 degree. -/
  lat : Word32
  /-- Signed, 1e-7 degree. -/
  lon : Word32
  speed : Half
  /-- Signed, 0.1 m. -/
  alt : Word32
  distHome : Half
  /-- Signed, degrees. -/
  dirHome : Half
  vbat : Half
deriving DecidableEq, Repr

/-- A port the serial provider holds open: its mode, its baud and the functions it serves
(R65 to R67). -/
structure Port where
  handle : Word32
  mode : PortMode
  baud : Word32
  tags : List Word32
deriving DecidableEq, Repr

/-- What `OpenPort` will answer (R66, R93): the handle, 0 if it cannot; and the mode and baud of the
opened port, `none` where the provider honours the argument it is given (R152). -/
structure OpenReply where
  handle : Word32
  mode : Option PortMode
  baud : Option Word32
deriving DecidableEq, Repr

/-- The provider calls that change a port, each one event (R73, R158). -/
inductive PortCall where
  | findPort (tag : Word32)
  | openPort (tag baud : Word32) (mode : PortMode) (cfg : Word32)
  | setMode (m : PortMode)
  | setBaud (n : Word32)
  | beginFunction (p tag : Word32)
  | endFunction (p tag : Word32)
deriving DecidableEq, Repr

/-- The serial provider's state (R45, R62 to R67). -/
structure Provider where
  /-- The receive FIFO, oldest byte first (R62, R63). -/
  rxFifo : List Byte
  /-- The ports held open (R66, R67). -/
  ports : List Port
  openReply : OpenReply
  /-- The bytes given to the provider to transmit, in order (R64). -/
  tx : List Byte
  /-- The port-changing calls made, in order. -/
  calls : List PortCall
  /-- The model's own: a byte was written since the provider last went to RX (log 17). -/
  txSinceRx : Bool
  /-- The model's own: a provider that does not drain was switched to RX with a byte possibly still
  unsent, "a wire fault outside the block" (92 D27, log 17). -/
  wireFault : Bool
deriving DecidableEq, Repr

/-- What PROVIDER's `find=` fixes: the port `FindPort` returns (R93). -/
structure FoundPort where
  handle : Word32
  mode : PortMode
  baud : Word32
deriving DecidableEq, Repr

/-- What another agent does between two host commands (R7, R93). -/
inductive AgentAct where
  /-- The remote device, or the echo, puts bytes on the wire (R69). -/
  | wire (bytes : List Byte)
  /-- The telemetry source changes its snapshot (R68). -/
  | snap (v : Snapshot)
  /-- The provider's registry for the function tag changes (R66, R93). -/
  | providerFind (p : Option FoundPort)
  /-- What the provider's `OpenPort` answers changes (R66, R93). -/
  | providerOpen (r : OpenReply)
deriving DecidableEq, Repr

/-- What the outside world does next (log 1): it presents an encoded thing, an agent acts, or the block
is reset (R260). -/
inductive Input where
  | code (c : Code)
  | agent (a : AgentAct)
  | reset
deriving DecidableEq, Repr

/-- The four stored-frame buffers of R37. -/
inductive Buf where
  | frame (k : FrameKind)
  | next (k : FrameKind)
deriving DecidableEq, Repr

/-- The frame buffers' bytes: (address, byte) cells, in canonical form (log 18). -/
abbrev Mem := List Host.Cell

/-- What an unlisted cell of the frame buffers reads as: the reset contents, "Reset value of every
buffer byte: 0x00" (R37). -/
def unlistedByte : Byte := 0x00#8

/-- The machine's state. -/
structure State where
  /-- The configuration (Table P): fixed for a machine, no step changes it (log 10). -/
  cfg : Config
  /-- `INIT_DONE`. -/
  initDone : Bool
  /-- `CONFIG`. -/
  config : Word32
  /-- `PORT_ACQUIRED`. -/
  portAcquired : Bool
  /-- `PORT_HANDLE`. -/
  portHandle : Word32
  /-- `PORT_SHARED`. -/
  portShared : Bool
  /-- `PORT_MODE`. -/
  portMode : PortMode
  /-- `PORT_BAUD`. -/
  portBaud : Word32
  /-- `SAVED_MODE`. -/
  savedMode : PortMode
  /-- `SAVED_BAUD`. -/
  savedBaud : Word32
  /-- `SEND_ACTIVE`. -/
  sendActive : Bool
  /-- `CUR_FRAME`. -/
  curFrame : FrameKind
  /-- `CUR_OFFSET`. -/
  curOffset : Byte
  /-- `CUR_REMAINING`. -/
  curRemaining : Byte
  /-- `CKSUM`. -/
  cksum : Byte
  /-- `T_LAST_TX`. -/
  tLastTx : Word32
  /-- `WIN_ARMED`. -/
  winArmed : Bool
  /-- `WIN_T0`. -/
  winT0 : Word32
  /-- `T_LAST_REFRESH`. -/
  tLastRefresh : Word32
  /-- `FAULT`: 0 or a code of Table F. -/
  fault : Byte
  /-- The four frame buffers (R37), cells in canonical form (log 18). -/
  mem : Mem
  /-- `TRACE` (R44). -/
  trace : List Event
  /-- The serial provider (R45). -/
  provider : Provider
  /-- The telemetry source's snapshot (R45). -/
  snapshot : Snapshot
  /-- The model's own: the `now` of the last TICK that passed its checks (R36, log 6). -/
  now : Word32
  /-- The model's own: what the last DETECT returned (R170, log 7). -/
  detected : Option FrameKind
  /-- The model's own: the result words answered so far (R80, log 19). -/
  results : List Word40
  /-- The model's own: what the outside world does next (log 1). -/
  inputs : List Input
deriving DecidableEq, Repr

/-- The provider of a machine nobody has touched: no port open, an empty FIFO, `OpenPort` answering
handle 7 (DESIGN CHOICE after spec/95_test_vectors.md's start state, unsafe, log 14). -/
def Provider.initial : Provider where
  rxFifo := []
  ports := []
  openReply := { handle := 7#32, mode := none, baud := none }
  tx := []
  calls := []
  txSinceRx := false
  wireFault := false

/-- The all-zero snapshot (DESIGN CHOICE, unsafe, log 14). -/
def Snapshot.zero : Snapshot where
  fix := false
  numSat := 0#8
  lat := 0#32
  lon := 0#32
  speed := 0#16
  alt := 0#32
  distHome := 0#16
  dirHome := 0#16
  vbat := 0#16

/-- The machine right after reset: the block as R260 and Table S say, under the defaults of Table P, with
the other agents as in log 14 and nothing waiting at the host interface. -/
def State.reset : State where
  cfg := Config.default
  initDone := false
  config := 0#32
  portAcquired := false
  portHandle := 0#32
  portShared := false
  portMode := .rx
  portBaud := 0#32
  savedMode := .rx
  savedBaud := 0#32
  sendActive := false
  curFrame := .gps
  curOffset := 0#8
  curRemaining := 0#8
  cksum := 0#8
  tLastTx := 0#32
  winArmed := false
  winT0 := 0#32
  tLastRefresh := 0#32
  fault := 0#8
  mem := []
  trace := []
  provider := Provider.initial
  snapshot := Snapshot.zero
  now := 0#32
  detected := none
  results := []
  inputs := []

/-- Why a step stops with no next state. None of these is a fault of the block (those are next states,
R241). -/
inductive Fault where
  /-- Raised by ADVANCE, alone or inside TICK, when the send cursor breaks R41: a send is active with
  `CUR_REMAINING` 0, or with a stored byte to send and `CUR_OFFSET` at or past the frame's length, an
  offset R61 says no rule forms. No run reaches such a cursor. SAFE (log 9). -/
  | sendCursor
deriving DecidableEq, Repr

/-- Why there is no meaning. -/
inductive Refusal where
  /-- Raised by `exec` for an instruction with no meaning yet. SAFE. -/
  | notModelled (mnemonic : String)
  /-- Raised by `step` for a configuration that breaks R9: "a model refuses a configuration that breaks
  one". SAFE (log 10). -/
  | illegalConfiguration
  /-- Raised by `step` for a bench code that is no row of the opcode table; the hardware has no such
  port (R90). SAFE (log 2). -/
  | noSuchRow
deriving DecidableEq, Repr

end Sys2Proof.Machine
end

