-- ==== Sys2Proof/Machine/Operands.lean ====
section
/-! DEFINITION. Operand forms: the parameters that depend on the configuration, the legality of a
configuration, elapsed time, and the field conversions of the frame codec (spec/00_scope.md rules R9 and
R11, spec/30_encoding.md rule R87, spec/41_frame_codec.md rules R112 to R119). -/

namespace Sys2Proof.Machine

/-- `elapsed(t0, t1) = trunc_32(t1 − t0)` (R11): the wrap-around distance of two times. -/
def elapsed (t0 t1 : Word32) : Word32 := t1 - t0

/-- `len_k`: the length of the stored frame of kind `k` (spec/44_frame_transmitter.md). -/
def frameLen (cfg : Config) : FrameKind → Byte
  | .gps => cfg.gpsLen
  | .eam => cfg.eamLen

/-- `CLASS_ID_k` (R210). -/
def classId (cfg : Config) : FrameKind → Byte
  | .gps => cfg.gpsClassId
  | .eam => cfg.eamClassId

/-- `TEXT_ID_k` (R210). -/
def textId (cfg : Config) : FrameKind → Byte
  | .gps => cfg.gpsTextId
  | .eam => cfg.eamTextId

/-- `TEXT_OFF`, the text id's offset (R87). -/
def textOff (cfg : Config) : Byte :=
  match cfg.headerOrder with
  | .doc => 2#8
  | .hott => 3#8

/-- `WARN_OFF`, the warning byte's offset (R87). -/
def warnOff (cfg : Config) : Byte :=
  match cfg.headerOrder with
  | .doc => 3#8
  | .hott => 2#8

/-- A 32-bit interval in 1..2^31 − 1 (R9). -/
def intervalLegal (c : Word32) : Bool := decide (1#32 ≤ c) && decide (c < 0x80000000#32)

/-- The constraints of R9 on a configuration. "The frame offsets of Tables G and E must fit inside the
lengths" is read as: the last offset the codec writes (28 in Table G, 31 in Table E) lies before the
stop byte's offset `len − 1`, which is what R61 and R126 need (DEDUCED, log 11). -/
def configLegal (cfg : Config) : Bool :=
  decide (30#8 ≤ cfg.gpsLen) && decide (cfg.gpsLen ≤ 254#8) &&
  decide (33#8 ≤ cfg.eamLen) && decide (cfg.eamLen ≤ 254#8) &&
  (cfg.gpsAddr != cfg.eamAddr) &&
  intervalLegal cfg.settleUs && intervalLegal cfg.interByteUs && intervalLegal cfg.refreshIntervalUs &&
  decide (3 ≤ cfg.rxFifoCapacity) && decide (cfg.tickMaxIntervalUs < 2 ^ 31)

/-- A coordinate's three fields: the hemisphere flag, `degMin` and `sec` (R113). -/
structure CoordFields where
  h : Byte
  dm : Half
  sc : Half
deriving DecidableEq, Repr

/-- The hemisphere flag: 1 for a negative coordinate, 0 otherwise, including for 0 (R115). -/
def hemisphere (v : Word32) : Byte := if v.toInt < 0 then 1#8 else 0#8

/-- `Coord(v)` with `COORD_SIGN_MODE = MAGNITUDE` (R113). -/
def coordMagnitude (v : Word32) : CoordFields :=
  let m := v.toInt.natAbs
  let deg := m / degDivider
  let r := (m - deg * degDivider) * 6
  let min := r / 1000000
  let sc := (r % 1000000) / 100
  { h := hemisphere v, dm := BitVec.ofNat 16 (deg * 100 + min), sc := BitVec.ofNat 16 sc }

/-- `Coord(v)` with `COORD_SIGN_MODE = SIGNED_TRUNC` (R114): truncating division on the signed value. -/
def coordSignedTrunc (v : Word32) : CoordFields :=
  let x := v.toInt
  let deg := x.tdiv degDivider
  let r := (x - deg * degDivider) * 6
  let min := r.tdiv 1000000
  let sc := (r.tmod 1000000).tdiv 100
  { h := hemisphere v, dm := BitVec.ofInt 16 (deg * 100 + min), sc := BitVec.ofInt 16 sc }

/-- `Coord(v)` (R113, R114, 90 C4). -/
def coord (cfg : Config) (v : Word32) : CoordFields :=
  match cfg.coordSignMode with
  | .magnitude => coordMagnitude v
  | .signedTrunc => coordSignedTrunc v

/-- `Speed(x) = trunc_16((x div 100) * 36)` (R116): the division truncates before the multiply. -/
def speedCode (x : Half) : Half := BitVec.ofNat 16 (x.toNat / 100 * 36)

/-- `Alt(a) = trunc_16((a div 10) + ALT_OFFSET)` (R117): signed, truncating toward zero. -/
def altCode (cfg : Config) (a : Word32) : Half :=
  BitVec.ofInt 16 (a.toInt.tdiv 10 + cfg.altOffset.toNat)

/-- `FixChar(s)` (R112). -/
def fixChar (cfg : Config) (v : Snapshot) : Byte :=
  if v.fix then
    if sat3dMin ≤ v.numSat then cfg.fixChar3d else cfg.fixChar2d
  else cfg.fixCharNone

/-- `Classify(id, addr)` (R176). -/
def classify (cfg : Config) (requestId address : Byte) : Option FrameKind :=
  if requestId = cfg.binaryModeId ∧ address = cfg.gpsAddr then some .gps
  else if requestId = cfg.binaryModeId ∧ address = cfg.eamAddr then some .eam
  else none

end Sys2Proof.Machine
end

