-- ==== Sys2Proof/Machine/Flags.lean ====
section
/-! DEFINITION. Flags and codes as bits: the codes of Tables V, F and K, the STATUS word of Table O, TICK's
result mask (R212) and the derived phase (R39). -/

namespace Sys2Proof.Machine

/-- The 4-bit code of an event (Table V). -/
def eventCode : EventName → BitVec 4
  | .refresh => 0x0#4
  | .arm => 0x1#4
  | .discard => 0x2#4
  | .consume => 0x3#4
  | .beginSend => 0x4#4
  | .beginRejected => 0x5#4
  | .txByte => 0x6#4
  | .txCksum => 0x7#4
  | .sendDone => 0x8#4
  | .mode => 0x9#4
  | .acquire => 0xA#4
  | .release => 0xB#4
  | .init => 0xC#4
  | .fault => 0xD#4

/-- The value of `FAULT` for a fault code (Table F). -/
def faultBits : FaultCode → Byte
  | .illegalCommand => 0x01#8
  | .notInitialized => 0x02#8
  | .alreadyAcquired => 0x03#8
  | .notAcquired => 0x04#8
  | .acquireFailed => 0x05#8
  | .releaseWhileSending => 0x06#8
  | .initWhileAcquired => 0x07#8

/-- The status byte of a result word (Table K). -/
def statusBits : Status → Byte
  | .ok => 0x00#8
  | .faulted => 0x01#8
  | .faultRaised => 0x02#8
  | .badIndex => 0x03#8

/-- A mode as a bit: 0 = RX, 1 = TX (Table S). -/
def modeBit : PortMode → BitVec 1
  | .rx => 0#1
  | .tx => 1#1

/-- A 1-bit value as a trace argument (R91). -/
def bitByte (b : BitVec 1) : Byte := b.setWidth 8

/-- The result word: status in bits 39:32, data in bits 31:0 (R80). -/
def resultWord (st : Status) (data : Word32) : Word40 := statusBits st ++ data

/-- STATUS bits 7:0 (Table O, index 0x0000): bit 0 `INIT_DONE` up to bit 7 `CUR_FRAME`. -/
def statusFlags (s : State) : Byte :=
  bitOfKind s.curFrame ++ BitVec.ofBool s.sendActive ++ BitVec.ofBool s.winArmed ++
    modeBit s.savedMode ++ modeBit s.portMode ++ BitVec.ofBool s.portShared ++
    BitVec.ofBool s.portAcquired ++ BitVec.ofBool s.initDone

/-- The STATUS word (Table O, index 0x0000). -/
def statusWord (s : State) : Word32 := s.cksum ++ s.curRemaining ++ s.curOffset ++ statusFlags s

/-- TICK's result data (R212): bit 0 refreshed, bit 1 detector ran, bit 2 send begun, bit 3 byte written,
bit 4 send completed, bits 31:5 zero. -/
def tickMask (refreshed detectorRan begun written completed : Bool) : Word32 :=
  (0#27 ++ BitVec.ofBool completed ++ BitVec.ofBool written ++ BitVec.ofBool begun ++
    BitVec.ofBool detectorRan ++ BitVec.ofBool refreshed : BitVec 32)

/-- EV_REFRESH's first argument (Table V): bit 0 GPS written, bit 1 EAM written. -/
def refreshMask (gps eam : Bool) : Byte :=
  (0#6 ++ BitVec.ofBool eam ++ BitVec.ofBool gps : BitVec 8)

/-- The dispatcher phases of R39. -/
inductive Phase where
  | faulted
  | uninit
  | detached
  | sending
  | arming
  | listening
deriving DecidableEq, Repr

/-- The phase, a function of the registers (R39). -/
def phase (s : State) : Phase :=
  if s.fault ≠ 0#8 then .faulted
  else if !s.initDone then .uninit
  else if !s.portAcquired then .detached
  else if s.sendActive then .sending
  else if s.winArmed then .arming
  else .listening

end Sys2Proof.Machine
end

