-- ==== Sys2Proof/Machine/Ops.lean ====
section
/-! DEFINITION. The named operations over the frame buffers, the trace, the result port, the serial
provider and the other agents; raising a fault of the block and reset, the only way back
(spec/20_memory.md, spec/60_exceptions.md rules R241 to R244, spec/70_reset_and_hazards.md rule R260). -/

namespace Sys2Proof.Machine

/-! ### Frame buffer cells -/

/-- The byte at an address. -/
def readCell : Mem → Nat → Byte
  | [], _ => unlistedByte
  | c :: rest, a => if c.1 = a then c.2 else readCell rest a

/-- Put a cell into a list that lists no cell at its address, before the first higher address. -/
def insertCell (c : Host.Cell) : Mem → Mem
  | [] => [c]
  | d :: rest => if c.1 < d.1 then c :: d :: rest else d :: insertCell c rest

/-- Remove every cell at an address. -/
def eraseCell (a : Nat) (m : Mem) : Mem := m.filter (fun c => c.1 != a)

/-- Write a byte, keeping the canonical form: the value an unlisted address reads as is not listed. -/
def writeCell (m : Mem) (a : Nat) (v : Byte) : Mem :=
  if v = unlistedByte then eraseCell a m else insertCell (a, v) (eraseCell a m)

/-- The canonical form: addresses strictly rising, no cell equal to what an unlisted address reads as. -/
def memWf : Mem → Bool
  | [] => true
  | c :: rest => c.2 != unlistedByte && rest.all (fun d => decide (c.1 < d.1)) && memWf rest

/-- Where a buffer's bytes are observed: 0x0100 `FRAME_GPS`, 0x0200 `FRAME_EAM`, 0x0300 `NEXT_GPS`,
0x0400 `NEXT_EAM` (Table O). -/
def bufBase : Buf → Nat
  | .frame .gps => 0x0100
  | .frame .eam => 0x0200
  | .next .gps => 0x0300
  | .next .eam => 0x0400

/-- The kind of frame a buffer holds. -/
def bufKind : Buf → FrameKind
  | .frame k => k
  | .next k => k

/-- `B[i]`: offset `i` is an 8-bit number (R61). -/
def rd (m : Mem) (b : Buf) (i : Byte) : Byte := readCell m (bufBase b + i.toNat)

/-- `B[i] <- v`. -/
def wr (b : Buf) (i v : Byte) (m : Mem) : Mem := writeCell m (bufBase b + i.toNat) v

/-- `store16(B, i, v)`: the low byte at `i`, then the high byte at `i + 1` (R12, R70). -/
def store16 (b : Buf) (i : Byte) (v : Half) (m : Mem) : Mem :=
  wr b (i + 1#8) (hi8 v) (wr b i (lo8 v) m)

/-- `for i in 0 .. n - 1: B[i] <- 0x00` (R210). -/
def zeroBuf (b : Buf) : Nat → Mem → Mem
  | 0, m => m
  | n + 1, m => wr b (BitVec.ofNat 8 n) 0x00#8 (zeroBuf b n m)

/-- `for i in 0 .. n - 1: dst[i] <- src[i]` (R190). -/
def copyBuf (dst src : Buf) : Nat → Mem → Mem
  | 0, m => m
  | n + 1, m =>
    let m' := copyBuf dst src n m
    wr dst (BitVec.ofNat 8 n) (rd m' src (BitVec.ofNat 8 n)) m'

/-! ### The trace and the result port -/

/-- Append a record with time `t` (R44). -/
def emitAt (t : Word32) (name : EventName) (a b : Byte) (s : State) : State :=
  { s with trace := s.trace ++ [{ name := name, a := a, b := b, t := t }] }

/-- `emit` inside a tick: the record carries the tick's `now` (R44). -/
def emit (name : EventName) (a b : Byte) (s : State) : State := emitAt s.now name a b s

/-- Answer the command word (R80). -/
def answer (st : Status) (data : Word32) (s : State) : State :=
  { s with results := s.results ++ [resultWord st data] }

/-! ### Faults of the block -/

/-- `raise Fault(code)` (R241): `FAULT` holds the code, the trace records it with the opcode of the
faulting command word at time `t`, and the command ends with `(FAULT_RAISED, code)`. -/
def raiseFault (code : FaultCode) (opcode : Byte) (t : Word32) (s : State) : State :=
  answer .faultRaised ((faultBits code).setWidth 32)
    (emitAt t .fault (faultBits code) opcode { s with fault := faultBits code })

/-- Reset of the block (R260), the only way out of the fault state (R244): every register of Table S, every
buffer byte and the trace; "It calls no serial provider or telemetry primitive", so the other agents, the
configuration and the host's side of the interface stay. The model's own `now` and `detected` are cleared
with the block (log 23). -/
def resetBlock (s : State) : State :=
  { State.reset with
    cfg := s.cfg
    provider := s.provider
    snapshot := s.snapshot
    results := s.results
    inputs := s.inputs }

/-- A command word with a reserved opcode (R82, R243). -/
def reservedCommand (opcode : Byte) (s : State) : State :=
  if s.fault ≠ 0#8 then answer .faulted 0#32 s
  else raiseFault .illegalCommand opcode 0#32 s

/-! ### The serial provider -/

/-- `RxCount()` (R62). -/
def rxCount (s : State) : Nat := s.provider.rxFifo.length

/-- `RxRead()`: removes the oldest byte (R63). The byte it returns is the head of the FIFO. -/
def rxRead (s : State) : State :=
  { s with provider := { s.provider with rxFifo := s.provider.rxFifo.tail } }

/-- `repeat n times: RxRead()`, the values dropped (R157). -/
def rxReadN : Nat → State → State
  | 0, s => s
  | n + 1, s => rxReadN n (rxRead s)

/-- `TxWrite(b)` (R64): always accepted; the provider sends its bytes in the order given. -/
def txWrite (b : Byte) (s : State) : State :=
  { s with provider := { s.provider with tx := s.provider.tx ++ [b], txSinceRx := true } }

/-- Change the held port, the one whose handle is `h`. No port has the handle of no port held. -/
def updatePort (h : Word32) (mode : Option PortMode) (baud : Option Word32) (p : Port) : Port :=
  if p.handle = h then { p with mode := mode.getD p.mode, baud := baud.getD p.baud } else p

/-- Record a port-changing call (R73). -/
def callPort (c : PortCall) (p : Provider) : Provider := { p with calls := p.calls ++ [c] }

/-- The provider's side of `SetMode(m)` (R65). Under `PROVIDER_DRAINS_TX = false` a switch to RX with a
byte written since the last one may cut it short: a wire fault outside the block (92 D27, log 17). -/
def providerSetMode (drains : Bool) (h : Word32) (m : PortMode) (p : Provider) : Provider :=
  let toRx := decide (m = .rx)
  callPort (.setMode m)
    { p with
      ports := p.ports.map (updatePort h (some m) none)
      txSinceRx := p.txSinceRx && !toRx
      wireFault := p.wireFault || (toRx && !drains && p.txSinceRx) }

/-- `SetMode(m); PORT_MODE <- m; emit EV_MODE(m, 0)`: the three always come together (R27, R151, R154 to
R156). -/
def setMode (t : Word32) (m : PortMode) (s : State) : State :=
  emitAt t .mode (bitByte (modeBit m)) 0x00#8
    { s with
      provider := providerSetMode s.cfg.providerDrainsTx s.portHandle m s.provider
      portMode := m }

/-- The provider's side of `SetBaud(n)` (R65). -/
def providerSetBaud (h n : Word32) (p : Provider) : Provider :=
  callPort (.setBaud n) { p with ports := p.ports.map (updatePort h none (some n)) }

/-- `SetBaud(n); PORT_BAUD <- n` (R27). -/
def setBaud (n : Word32) (s : State) : State :=
  { s with provider := providerSetBaud s.portHandle n s.provider, portBaud := n }

/-- `FindPort(tag)` (R66): the first open port registered for the tag; handle 0 stands for none. -/
def foundPort (tag : Word32) (p : Provider) : Option Port :=
  p.ports.find? (fun q => q.handle != 0#32 && q.tags.contains tag)

/-- The port `OpenPort(tag, baud, mode, cfg)` opens, or none where it cannot (R66, R67). -/
def openedPort (tag baud : Word32) (mode : PortMode) (p : Provider) : Option Port :=
  if p.openReply.handle = 0#32 then none
  else some
    { handle := p.openReply.handle
      mode := p.openReply.mode.getD mode
      baud := p.openReply.baud.getD baud
      tags := [tag] }

/-- A port newly opened, in place of any port of the same handle (DEDUCED, log 15). -/
def addPort (q : Port) (p : Provider) : Provider :=
  { p with ports := q :: p.ports.filter (fun r => r.handle != q.handle) }

/-- The provider after `OpenPort(tag, baud, mode, cfg)` (R66). -/
def providerOpenPort (tag baud : Word32) (mode : PortMode) (cfg : Word32) (p : Provider) : Provider :=
  callPort (.openPort tag baud mode cfg)
    (match openedPort tag baud mode p with
      | none => p
      | some q => addPort q p)

/-- `BeginFunction(p, tag)` (R67): the port is registered for the tag, listed once (DEDUCED, log 15). -/
def providerBeginFunction (h tag : Word32) (p : Provider) : Provider :=
  callPort (.beginFunction h tag)
    { p with ports := p.ports.map (fun q =>
        if q.handle = h && !q.tags.contains tag then { q with tags := tag :: q.tags } else q) }

/-- `EndFunction(p, tag)` (R67): the port is unregistered for the tag. -/
def providerEndFunction (h tag : Word32) (p : Provider) : Provider :=
  callPort (.endFunction h tag)
    { p with ports := p.ports.map (fun q =>
        if q.handle = h then { q with tags := q.tags.filter (fun u => u != tag) } else q) }

/-! ### The other agents -/

/-- One byte arrives: "a byte arriving at a full FIFO is lost and the FIFO is unchanged" (R69). -/
def receiveByte (capacity : Nat) (b : Byte) (fifo : List Byte) : List Byte :=
  if fifo.length < capacity then fifo ++ [b] else fifo

/-- Bytes arrive in order (R69). -/
def receiveBytes (capacity : Nat) : List Byte → List Byte → List Byte
  | [], fifo => fifo
  | b :: rest, fifo => receiveBytes capacity rest (receiveByte capacity b fifo)

/-- No port is registered for the tag. -/
def withoutTag (tag : Word32) (ports : List Port) : List Port :=
  ports.map (fun q => { q with tags := q.tags.filter (fun u => u != tag) })

/-- The given port is the one registered for the tag, in place of any port of the same handle. -/
def registerOnly (tag : Word32) (f : FoundPort) (ports : List Port) : List Port :=
  { handle := f.handle, mode := f.mode, baud := f.baud, tags := [tag] } ::
    (withoutTag tag ports).filter (fun q => q.handle != f.handle)

/-- What an agent other than the host and the block does between two commands (R7, R93). A PROVIDER act may
come at any time and may rewrite the mode, baud and tag of the port the block is holding: R93 sets no
condition and R77 calls the port exclusive (DESIGN CHOICE, unsafe, log 28). -/
def applyAgent (a : AgentAct) (s : State) : State :=
  match a with
  | .wire bytes =>
    { s with provider :=
        { s.provider with rxFifo := receiveBytes s.cfg.rxFifoCapacity bytes s.provider.rxFifo } }
  | .snap v => { s with snapshot := v }
  | .providerFind none =>
    { s with provider :=
        { s.provider with ports := withoutTag s.cfg.functionTag s.provider.ports } }
  | .providerFind (some f) =>
    { s with provider :=
        { s.provider with ports := registerOnly s.cfg.functionTag f s.provider.ports } }
  | .providerOpen r => { s with provider := { s.provider with openReply := r } }

end Sys2Proof.Machine
end

