-- ==== Sys2Proof/Machine/Codec.lean ====
section
/-! DEFINITION. The Frame Codec (spec/41_frame_codec.md): REFRESH and the composition of the two response
frames. -/

namespace Sys2Proof.Machine

/-- Write one coordinate's fields: the hemisphere flag at `i`, `degMin` at `i + 1`, `sec` at `i + 3`
(R111, Table G). -/
def storeCoord (b : Buf) (i : Byte) (c : CoordFields) (m : Mem) : Mem :=
  store16 b (i + 3#8) c.sc (store16 b (i + 1#8) c.dm (wr b i c.h m))

/-- `ComposeGPS(B, s)` from snapshot `v` (R111, R120, R121). -/
def composeGps (cfg : Config) (b : Buf) (v : Snapshot) (m : Mem) : Mem :=
  let m1 := wr b 27#8 (fixChar cfg v) (wr b 26#8 v.numSat m)
  if !v.fix && cfg.gpsNofixHold then m1
  else
    let m2 := storeCoord b 9#8 (coord cfg v.lat) m1
    let m3 := storeCoord b 14#8 (coord cfg v.lon) m2
    let m4 := store16 b 7#8 (speedCode v.speed) m3
    let m5 := store16 b 19#8 v.distHome m4
    let m6 := store16 b 21#8 (altCode cfg v.alt) m5
    wr b 28#8 (lo8 v.dirHome) m6

/-- `ComposeEAM(B, s)` from snapshot `v` (R122 to R124). -/
def composeEam (cfg : Config) (b : Buf) (v : Snapshot) (m : Mem) : Mem :=
  let m1 := wr b 5#8 0x00#8 (wr b 4#8 0x00#8 (wr b (warnOff cfg) 0x00#8 m))
  store16 b 30#8 v.vbat (store16 b 20#8 v.vbat m1)

/-- Compose the frame of kind `k` into buffer `b`. -/
def compose (cfg : Config) (k : FrameKind) (b : Buf) (v : Snapshot) (m : Mem) : Mem :=
  match k with
  | .gps => composeGps cfg b v m
  | .eam => composeEam cfg b v m

/-- Whether `REFRESH_POLICY` lets a refresh write kind `k` now (R110): under `GATE` not while that frame is
being sent. -/
def refreshWrites (s : State) (k : FrameKind) : Bool :=
  match s.cfg.refreshPolicy with
  | .literal => true
  | .gate => !(s.sendActive && decide (s.curFrame = k))
  | .double => true

/-- Which buffer a refresh of kind `k` writes (R110): `NEXT_k` under `DOUBLE`, `FRAME_k` otherwise. -/
def refreshTarget (s : State) (k : FrameKind) : Buf :=
  match s.cfg.refreshPolicy with
  | .literal => .frame k
  | .gate => .frame k
  | .double => .next k

/-- REFRESH's body for one kind (R110). -/
def refreshKind (k : FrameKind) (v : Snapshot) (s : State) : State :=
  if refreshWrites s k then { s with mem := compose s.cfg k (refreshTarget s k) v s.mem } else s

/-- `REFRESH()` (R110): one snapshot read, GPS first, then EAM. -/
def refresh (s : State) : State :=
  emit .refresh (refreshMask (refreshWrites s .gps) (refreshWrites s .eam)) 0x00#8
    (refreshKind .eam s.snapshot (refreshKind .gps s.snapshot s))

/-- `REFRESH` as a row of the table. -/
def execRefresh (s : State) : Host.Outcome State Fault Refusal := .next (refresh s)

/-- `RESP_GPS`: the GPS response frame is composed from the current snapshot (R111), into the buffer and
under the policy by which a refresh composes it (R110; DEDUCED, log 4). -/
def execRespGps (s : State) : Host.Outcome State Fault Refusal := .next (refreshKind .gps s.snapshot s)

/-- `RESP_EAM`: the Battery/EAM response frame is composed from the current snapshot (R122), as for
`RESP_GPS` (DEDUCED, log 4). -/
def execRespEam (s : State) : Host.Outcome State Fault Refusal := .next (refreshKind .eam s.snapshot s)

end Sys2Proof.Machine
end

