-- ==== Sys2Proof/Machine/Arbiter.lean ====
section
/-! DEFINITION. The Bus Port Arbiter (spec/42_bus_port_arbiter.md): ACQUIRE, RELEASE, SWITCH_TX, SWITCH_RX,
DISCARD_RX. -/

namespace Sys2Proof.Machine

/-- The fault-state answer of a command that answers nothing there: `(FAULTED, 0)`, no effect (R243). -/
def answerFaulted (s : State) : Host.Outcome State Fault Refusal := .next (answer .faulted 0#32 s)

/-- `FindPort(FUNCTION_TAG)`: the call alone. -/
def callFindPort (s : State) : State :=
  { s with provider := callPort (.findPort s.cfg.functionTag) s.provider }

/-- `AcquireFound(p)` (R151). -/
def acquireFound (p : Port) (s : State) : State :=
  let s1 := { s with savedMode := p.mode, savedBaud := p.baud, portHandle := p.handle, portShared := true }
  let s2 := setMode 0#32 .rx (setBaud s.cfg.baud s1)
  { s2 with provider := providerBeginFunction p.handle s.cfg.functionTag s2.provider }

/-- `OpenPort(FUNCTION_TAG, BAUD, RX, CONFIG)`: the call alone (R152). -/
def callOpenPort (s : State) : State :=
  { s with provider := providerOpenPort s.cfg.functionTag s.cfg.baud .rx s.config s.provider }

/-- The registers after `AcquireOpen()` got port `p` (R152). -/
def acquireOpened (p : Port) (s : State) : State :=
  { s with
    savedMode := p.mode, savedBaud := p.baud, portHandle := p.handle, portShared := false
    portBaud := s.cfg.baud, portMode := .rx }

/-- ACQUIRE's last lines (R150). -/
def acquireDone (s : State) : State :=
  answer .ok 0#32
    (emitAt 0#32 .acquire (bitByte (BitVec.ofBool s.portShared)) 0x00#8
      { s with portAcquired := true, winArmed := false })

/-- `ACQUIRE` (R150 to R153). -/
def execAcquire (op : Word32) (s : State) : Host.Outcome State Fault Refusal :=
  if s.fault ≠ 0#8 then answerFaulted s
  else if op ≠ 0#32 then .next (raiseFault .illegalCommand 0x02#8 0#32 s)
  else if !s.initDone then .next (raiseFault .notInitialized 0x02#8 0#32 s)
  else if s.portAcquired then .next (raiseFault .alreadyAcquired 0x02#8 0#32 s)
  else
    match foundPort s.cfg.functionTag s.provider with
    | some p => .next (acquireDone (acquireFound p (callFindPort s)))
    | none =>
      match openedPort s.cfg.functionTag s.cfg.baud .rx s.provider with
      | some p => .next (acquireDone (acquireOpened p (callOpenPort (callFindPort s))))
      | none =>
        .next (raiseFault .acquireFailed 0x02#8 0#32 (callOpenPort (callFindPort s)))

/-- RELEASE's effect once its checks pass (R154). -/
def releasePort (s : State) : State :=
  let s1 := setBaud s.savedBaud (setMode 0#32 s.savedMode s)
  let s2 := { s1 with provider := providerEndFunction s.portHandle s.cfg.functionTag s1.provider }
  answer .ok 0#32
    (emitAt 0#32 .release 0x00#8 0x00#8
      { s2 with portAcquired := false, portHandle := 0#32, portShared := false, winArmed := false })

/-- `RELEASE` (R154). -/
def execRelease (op : Word32) (s : State) : Host.Outcome State Fault Refusal :=
  if s.fault ≠ 0#8 then answerFaulted s
  else if op ≠ 0#32 then .next (raiseFault .illegalCommand 0x03#8 0#32 s)
  else if !s.portAcquired then .next (raiseFault .notAcquired 0x03#8 0#32 s)
  else if s.sendActive then .next (raiseFault .releaseWhileSending 0x03#8 0#32 s)
  else .next (releasePort s)

/-- `SWITCH_TX()` (R155). -/
def switchTx (s : State) : State := setMode s.now .tx s

/-- `SWITCH_TX` as a row of the table. -/
def execSwitchTx (s : State) : Host.Outcome State Fault Refusal := .next (switchTx s)

/-- A DISCARD_RX reason as a trace argument (Table V). -/
def reasonByte (r : DiscardReason) : Byte := bitByte (bitOfReason r)

/-- `DISCARD_RX(reason)` (R157). -/
def discardRx (reason : DiscardReason) (s : State) : State :=
  emit .discard (BitVec.ofNat 8 (rxCount s)) (reasonByte reason) (rxReadN (rxCount s) s)

/-- `DISCARD_RX` as a row of the table. -/
def execDiscardRx (reason : DiscardReason) (s : State) : Host.Outcome State Fault Refusal :=
  .next (discardRx reason s)

/-- `SWITCH_RX()` (R156). -/
def switchRx (s : State) : State := discardRx .endOfSend (setMode s.now .rx s)

/-- `SWITCH_RX` as a row of the table. -/
def execSwitchRx (s : State) : Host.Outcome State Fault Refusal := .next (switchRx s)

end Sys2Proof.Machine
end

