-- ==== Sys2Proof/Machine/Transmitter.lean ====
section
/-! DEFINITION. The Frame Transmitter (spec/44_frame_transmitter.md): BEGIN_SEND and ADVANCE. -/

namespace Sys2Proof.Machine

/-- A frame kind as a trace argument (Table V). -/
def kindByte (k : FrameKind) : Byte := bitByte (bitOfKind k)

/-- Under `DOUBLE` the copy of the next-refresh buffer into the send buffer (R192); no copy otherwise. -/
def swapIn (cfg : Config) (k : FrameKind) (m : Mem) : Mem :=
  match cfg.refreshPolicy with
  | .literal => m
  | .gate => m
  | .double => copyBuf (.frame k) (.next k) (frameLen cfg k).toNat m

/-- `BEGIN_SEND(k, now)` (R190 to R192) at the tick's `now`. -/
def beginSend (k : FrameKind) (s : State) : State :=
  if s.sendActive then emit .beginRejected (kindByte k) 0x00#8 s
  else
    let s1 := { s with
      mem := swapIn s.cfg k s.mem
      sendActive := true, curFrame := k, curOffset := 0#8
      curRemaining := frameLen s.cfg k + 1#8, cksum := 0#8 }
    let s2 := switchTx (emit .beginSend (kindByte k) 0x00#8 s1)
    { s2 with tLastTx := s2.now }

/-- `BEGIN_SEND` as a row of the table. -/
def execBeginSend (k : FrameKind) (s : State) : Host.Outcome State Fault Refusal := .next (beginSend k s)

/-- The send cursor can be advanced (R41): a byte is left, and if it is a stored byte its offset lies in
the frame (R61). -/
def cursorSound (s : State) : Bool :=
  s.curRemaining == 1#8 ||
    (s.curRemaining != 0#8 && decide (s.curOffset < frameLen s.cfg s.curFrame))

/-- `SendFrameByte()` (R194): the byte is read now, not at BEGIN_SEND. -/
def sendFrameByte (s : State) : State :=
  let b := rd s.mem (.frame s.curFrame) s.curOffset
  let s1 := emit .txByte b s.curOffset (txWrite b { s with cksum := s.cksum + b })
  { s1 with curOffset := s1.curOffset + 1#8 }

/-- `SendChecksumAndFinish()` (R195). -/
def sendChecksumAndFinish (s : State) : State :=
  let s1 := emit .txCksum s.cksum 0x00#8 (txWrite s.cksum s)
  let s2 := { s1 with sendActive := false, curFrame := .gps, curOffset := 0#8, cksum := 0#8 }
  emit .sendDone (kindByte s.curFrame) 0x00#8 (switchRx s2)

/-- `ADVANCE(now)` (R193) at the tick's `now`. -/
def advance (s : State) : State :=
  let s1 := { s with curRemaining := s.curRemaining - 1#8 }
  let s2 := if s1.curRemaining = 0#8 then sendChecksumAndFinish s1 else sendFrameByte s1
  { s2 with tLastTx := s2.now }

/-- `ADVANCE` as a row of the table. With no cursor there is nothing to advance and nothing happens (R193
"only when SEND_ACTIVE = 1", R216; DEDUCED, safe, log 8). The inter-byte gate is the caller's (R200). A
cursor that breaks R41 stops by name (log 9). -/
def execAdvance (s : State) : Host.Outcome State Fault Refusal :=
  if !s.sendActive then .next s
  else if cursorSound s then .next (advance s)
  else .fault .sendCursor

end Sys2Proof.Machine
end

