-- ==== Sys2Proof/Machine/Detector.lean ====
section
/-! DEFINITION. The Request Detector (spec/43_request_detector.md): DETECT, and the actions of the four
request rows of spec/30_encoding.md Table Q. -/

namespace Sys2Proof.Machine

/-- DETECT returns `r` (R170; the value stays in the model's own field, log 7). -/
def detectReturns (r : Option FrameKind) (s : State) : State := { s with detected := r }

/-- Exactly 2 bytes waiting, window not armed (R173). -/
def armWindow (s : State) : State :=
  emit .arm 0x00#8 0x00#8 { s with winArmed := true, winT0 := s.now }

/-- Disarm, read the two bytes `id` and `addr`, trace them (R175). -/
def consumeRequest (id addr : Byte) (s : State) : State :=
  emit .consume id addr (rxRead (rxRead { s with winArmed := false }))

/-- More than 2 bytes waiting (R172). -/
def discardNoise (s : State) : State := { discardRx .noise s with winArmed := false }

/-- `DETECT(now)` (R170 to R176) at the tick's `now`. -/
def detect (s : State) : State :=
  match s.provider.rxFifo with
  | [] => detectReturns none s
  | [_] => detectReturns none s
  | [id, addr] =>
    if !s.winArmed then detectReturns none (armWindow s)
    else if elapsed s.winT0 s.now < s.cfg.settleUs then detectReturns none s
    else detectReturns (classify s.cfg id addr) (consumeRequest id addr s)
  | _ :: _ :: _ :: _ => detectReturns none (discardNoise s)

/-- `DETECT` as a row of the table: it runs exactly when no send is active (R170, R215; offered during a
send it does not run: DEDUCED, safe, log 8). -/
def execDetect (s : State) : Host.Outcome State Fault Refusal :=
  if s.sendActive then .next s else .next (detect s)

/-- `REQ_GPS`: a consumed binary-mode GPS poll starts a GPS send (Table Q, R176, R215). -/
def execReqGps (s : State) : Host.Outcome State Fault Refusal := .next (beginSend .gps s)

/-- `REQ_EAM`: a consumed binary-mode Battery/EAM poll starts an EAM send (Table Q, R176, R215). -/
def execReqEam (s : State) : Host.Outcome State Fault Refusal := .next (beginSend .eam s)

/-- `REQ_BIN_OTHER`: "no action (ignored, no response scheduled)" (Table Q). -/
def execReqBinOther (_address : Byte) (s : State) : Host.Outcome State Fault Refusal := .next s

/-- `REQ_OTHER`: "Non-matching request-id: ignored entirely" (Table Q). -/
def execReqOther (_requestId _address : Byte) (s : State) : Host.Outcome State Fault Refusal := .next s

end Sys2Proof.Machine
end

