-- ==== Sys2Proof/Machine/Dispatcher.lean ====
section
/-! DEFINITION. The Session Dispatcher and the host commands that are not the arbiter's
(spec/45_session_dispatcher.md): INIT, TICK, QUERY_BAUD, OBS_READ. -/

namespace Sys2Proof.Machine

/-- INIT of one buffer (R210): zeros, start byte, class id, text id, stop byte. -/
def initBuf (cfg : Config) (b : Buf) (m : Mem) : Mem :=
  let k := bufKind b
  let len := frameLen cfg k
  wr b (len - 1#8) stopByte
    (wr b (textOff cfg) (textId cfg k)
      (wr b 1#8 (classId cfg k) (wr b 0#8 startByte (zeroBuf b len.toNat m))))

/-- INIT of all four buffers (R210). -/
def initBufs (cfg : Config) (m : Mem) : Mem :=
  initBuf cfg (.next .eam)
    (initBuf cfg (.frame .eam) (initBuf cfg (.next .gps) (initBuf cfg (.frame .gps) m)))

/-- INIT's effect once its checks pass (R210). It writes `T_LAST_TX`, as R210 and Table S have it, against
R198's "No other rule writes it" (DEDUCED, unsafe, log 30). -/
def initSession (handle : Word32) (s : State) : State :=
  answer .ok 0#32
    (emitAt 0#32 .init 0x00#8 0x00#8
      { s with
        config := handle
        mem := initBufs s.cfg s.mem
        winArmed := false, winT0 := 0#32, tLastTx := 0#32, tLastRefresh := 0#32, initDone := true })

/-- `INIT cfg` (R210, R211). -/
def execInit (cfg : Word32) (s : State) : Host.Outcome State Fault Refusal :=
  if s.fault ≠ 0#8 then answerFaulted s
  else if s.portAcquired then .next (raiseFault .initWhileAcquired 0x01#8 0#32 s)
  else .next (initSession cfg s)

/-- Step 1's test (R214). -/
def refreshDue (s : State) : Bool := decide (s.cfg.refreshIntervalUs ≤ elapsed s.tLastRefresh s.now)

/-- Step 1 of a tick (R214): a due refresh runs and its time is recorded. -/
def tickRefresh (s : State) : State :=
  if refreshDue s then { refresh s with tLastRefresh := s.now } else s

/-- Step 2 of a tick (R215): detection, only when idle, and the start of a send. -/
def tickDetect (s : State) : State :=
  if s.sendActive then s
  else
    match (detect s).detected with
    | none => detect s
    | some k => beginSend k (detect s)

/-- Whether step 2 began a send: DETECT ran and returned a kind (R212, bit 2). -/
def tickBegins (s : State) : Bool := !s.sendActive && (detect s).detected.isSome

/-- Step 4's test (R217). -/
def gateOpen (s : State) : Bool := decide (s.cfg.interByteUs ≤ elapsed s.tLastTx s.now)

/-- A tick that passed its checks, at `s.now` (R212). `s1` is the state after step 1, `s2` after step 2. -/
def tickBody (s : State) : Host.Outcome State Fault Refusal :=
  let s1 := tickRefresh s
  let s2 := tickDetect s1
  if s2.sendActive && gateOpen s2 then
    if cursorSound s2 then
      .next (answer .ok
        (tickMask (refreshDue s) (!s1.sendActive) (tickBegins s1) true (!(advance s2).sendActive))
        (advance s2))
    else .fault .sendCursor
  else
    .next (answer .ok (tickMask (refreshDue s) (!s1.sendActive) (tickBegins s1) false false) s2)

/-- `TICK now` (R212, R213). -/
def execTick (now : Word32) (s : State) : Host.Outcome State Fault Refusal :=
  if s.fault ≠ 0#8 then answerFaulted s
  else if !s.initDone then .next (raiseFault .notInitialized 0x04#8 now s)
  else if !s.portAcquired then .next (raiseFault .notAcquired 0x04#8 now s)
  else tickBody { s with now := now }

/-- `QUERY_BAUD` (R218). -/
def execQueryBaud (op : Word32) (s : State) : Host.Outcome State Fault Refusal :=
  if s.fault ≠ 0#8 then .next (answer .faulted (if op = 0#32 then s.cfg.baud else 0#32) s)
  else if op ≠ 0#32 then .next (raiseFault .illegalCommand 0x05#8 0#32 s)
  else .next (answer .ok s.cfg.baud s)

/-- A buffer byte at observation index `i`, if `i` is one of `b`'s (Table O). -/
def observeBuf (s : State) (b : Buf) (i : Nat) : Option Word32 :=
  if bufBase b ≤ i ∧ i < bufBase b + (frameLen s.cfg (bufKind b)).toNat then
    some ((rd s.mem b (BitVec.ofNat 8 (i - bufBase b))).setWidth 32)
  else none

/-- The content of Table O at index `i`, none where Table O has no such index (R42). -/
def observe (s : State) (i : Nat) : Option Word32 :=
  match i with
  | 0x0000 => some (statusWord s)
  | 0x0001 => some (s.fault.setWidth 32)
  | 0x0002 => some s.winT0
  | 0x0003 => some s.tLastTx
  | 0x0004 => some s.tLastRefresh
  | 0x0005 => some s.portBaud
  | 0x0006 => some s.savedBaud
  | 0x0007 => some s.config
  | 0x0008 => some s.portHandle
  | i =>
    (observeBuf s (.frame .gps) i).or
      ((observeBuf s (.frame .eam) i).or
        ((observeBuf s (.next .gps) i).or (observeBuf s (.next .eam) i)))

/-- `OBS_READ index` (R219). -/
def execObsRead (op : Word32) (s : State) : Host.Outcome State Fault Refusal :=
  if op.extractLsb' 16 16 ≠ 0#16 then
    if s.fault ≠ 0#8 then answerFaulted s
    else .next (raiseFault .illegalCommand 0x06#8 0#32 s)
  else
    match observe s (op.extractLsb' 0 16).toNat with
    | none => .next (answer (if s.fault ≠ 0#8 then .faulted else .badIndex) 0#32 s)
    | some v => .next (answer (if s.fault ≠ 0#8 then .faulted else .ok) v s)

end Sys2Proof.Machine
end

