-- ==== Sys2Proof/Machine/Dispatch.lean ====
section
/-! DEFINITION. One arm per instruction: the meaning of each row of spec/opcode_table.json. -/

namespace Sys2Proof.Machine

def exec (i : Instr) (s : State) : Host.Outcome State Fault Refusal :=
  match i with
  | .init cfg => Sys2Proof.Machine.execInit cfg s
  | .acquire op => Sys2Proof.Machine.execAcquire op s
  | .release op => Sys2Proof.Machine.execRelease op s
  | .tick now => Sys2Proof.Machine.execTick now s
  | .queryBaud op => Sys2Proof.Machine.execQueryBaud op s
  | .obsRead op => Sys2Proof.Machine.execObsRead op s
  | .reqGps => Sys2Proof.Machine.execReqGps s
  | .reqEam => Sys2Proof.Machine.execReqEam s
  | .reqBinOther address => Sys2Proof.Machine.execReqBinOther address s
  | .reqOther requestId address => Sys2Proof.Machine.execReqOther requestId address s
  | .respGps => Sys2Proof.Machine.execRespGps s
  | .respEam => Sys2Proof.Machine.execRespEam s
  | .refresh => Sys2Proof.Machine.execRefresh s
  | .detect => Sys2Proof.Machine.execDetect s
  | .beginSend k => Sys2Proof.Machine.execBeginSend k s
  | .advance => Sys2Proof.Machine.execAdvance s
  | .switchTx => Sys2Proof.Machine.execSwitchTx s
  | .switchRx => Sys2Proof.Machine.execSwitchRx s
  | .discardRx reason => Sys2Proof.Machine.execDiscardRx reason s

end Sys2Proof.Machine
end

