-- ==== Sys2Proof/Machine/Step.lean ====
section
/-! DEFINITION. One step: the block or another agent does what the outside world does next (log 1). -/

namespace Sys2Proof.Machine

/-- One step. A configuration that breaks R9 is refused. With nothing waiting nothing happens (R254).
Otherwise the first entry of `inputs` is taken: reset (R260), an agent's action (R7), or an encoded thing,
which is decoded and run. A command word with a must-be-0 bit set runs its command, whose own check raises
`ILLEGAL_COMMAND` (R150, R154, R218, R219); a reserved opcode raises it too (R82). -/
def step (s : State) : Host.Outcome State Fault Refusal :=
  if !configLegal s.cfg then .refused .illegalConfiguration
  else
    match s.inputs with
    | [] => .next s
    | .reset :: rest => .next (resetBlock { s with inputs := rest })
    | .agent a :: rest => .next (applyAgent a { s with inputs := rest })
    | .code c :: rest =>
      match decode s.cfg c with
      | .ok i => exec i { s with inputs := rest }
      | .rejected (.mustBeZero i) => exec i { s with inputs := rest }
      | .rejected (.reservedOpcode opcode) => .next (reservedCommand opcode { s with inputs := rest })
      | .rejected (.unknownHeader _) => .refused .noSuchRow
      | .rejected (.reservedSubop _) => .refused .noSuchRow
      | .rejected (.subopOperand _) => .refused .noSuchRow

/-- `s` with the opcode-table word `w` of `nbits` bits presented first (log 1). -/
def State.withFetchWord (s : State) (nbits w : Nat) : State :=
  { s with inputs := .code (tableCode nbits w) :: s.inputs }

end Sys2Proof.Machine
end

