-- ==== Sys2Proof/Laws/PerInstr.lean ====
section
/-! SUPPORT. The statements about every instruction, one lemma for each constructor. -/

namespace Sys2Proof

/-! ### Field selection, once -/

theorem extract_high {m n : Nat} (a : BitVec m) (b : BitVec n) :
    (a ++ b).extractLsb' n m = a := by
  ext i hi
  rw [BitVec.getElem_extractLsb', BitVec.getLsbD_append, if_neg (by omega), Nat.add_sub_cancel_left]
  exact BitVec.getLsbD_eq_getElem hi

theorem extract_low {m n : Nat} (a : BitVec m) (b : BitVec n) :
    (a ++ b).extractLsb' 0 n = b := by
  ext i hi
  simp only [BitVec.getElem_extractLsb', Nat.zero_add, BitVec.getLsbD_append, hi, if_true]
  exact BitVec.getLsbD_eq_getElem hi

theorem opcodeOf_append (opcode : Byte) (op : Word32) :
    opcodeOf (opcode ++ op : BitVec 40) = opcode := extract_high opcode op

theorem operandOf_append (opcode : Byte) (op : Word32) :
    operandOf (opcode ++ op : BitVec 40) = op := extract_low opcode op

/-- Decoding a command word: the command of Table H, if its operand is a legal one (R80 to R82). -/
theorem decode_hostWord (cfg : Config) (opcode : Byte) (op : Word32) :
    decode cfg (hostWord opcode op) =
      match hostCommand opcode op with
      | none => .rejected (.reservedOpcode opcode)
      | some i => if wellFormed cfg i then .ok i else .rejected (.mustBeZero i) := by
  unfold hostWord
  simp only [decode, decodeHost, opcodeOf_append, operandOf_append] <;>
    cases hostCommand opcode op <;> rfl

/-- Decoding a request: the row of Table Q its two bytes name (R83). -/
theorem decode_requestWord (cfg : Config) (requestId address : Byte) :
    decode cfg (requestWord requestId address) = .ok (decodeRequest cfg requestId address) := by
  unfold requestWord
  simp only [decode]
  rw [show (requestId ++ address : BitVec 16).extractLsb' 8 8 = requestId from extract_high _ _,
    show (requestId ++ address : BitVec 16).extractLsb' 0 8 = address from extract_low _ _]

theorem append_left_inj {m n : Nat} {a a' : BitVec m} {b b' : BitVec n} (h : a ++ b = a' ++ b') :
    a = a' ∧ b = b' := by
  constructor
  · rw [← extract_high a b, h, extract_high]
  · rw [← extract_low a b, h, extract_low]

/-- The two response headers are equal only if their class ids are, and under `DOC` their text ids too
(Table R2). -/
theorem responseHeader_eq (cfg : Config) (h : responseHeader cfg .eam = responseHeader cfg .gps) :
    cfg.eamClassId = cfg.gpsClassId ∧ (cfg.headerOrder = .doc → cfg.eamTextId = cfg.gpsTextId) := by
  unfold responseHeader at h
  dsimp only at h
  obtain ⟨h1, h2⟩ := append_left_inj h
  obtain ⟨-, h3⟩ := append_left_inj h1
  exact ⟨h3, fun hd => by simpa [hd] using h2⟩

end Sys2Proof

namespace Sys2Proof.Laws.DecodeEncode

/-- Under every configuration, decoding the encoding of the instruction gives it back, if it is
well-formed. -/
def Statement (i : Instr) : Prop :=
  ∀ cfg : Config, wellFormed cfg i = true → decode cfg (encode cfg i) = .ok i

theorem init (c : Word32) : Statement (.init c) := fun cfg _ => by
  simp [encode, decode_hostWord, hostCommand, wellFormed]

theorem acquire (op : Word32) : Statement (.acquire op) := fun cfg h => by
  simp [encode, decode_hostWord, hostCommand, h]

theorem release (op : Word32) : Statement (.release op) := fun cfg h => by
  simp [encode, decode_hostWord, hostCommand, h]

theorem tick (now : Word32) : Statement (.tick now) := fun cfg _ => by
  simp [encode, decode_hostWord, hostCommand, wellFormed]

theorem queryBaud (op : Word32) : Statement (.queryBaud op) := fun cfg h => by
  simp [encode, decode_hostWord, hostCommand, h]

theorem obsRead (op : Word32) : Statement (.obsRead op) := fun cfg h => by
  simp [encode, decode_hostWord, hostCommand, h]

theorem reqGps : Statement .reqGps := fun cfg _ => by
  simp [encode, decode_requestWord, decodeRequest]

theorem reqEam : Statement .reqEam := fun cfg h => by
  have h' : cfg.eamAddr ≠ cfg.gpsAddr := by simpa [wellFormed] using h
  simp [encode, decode_requestWord, decodeRequest, h']

theorem reqBinOther (address : Byte) : Statement (.reqBinOther address) := fun cfg h => by
  have h' : address ≠ cfg.gpsAddr ∧ address ≠ cfg.eamAddr := by simpa [wellFormed] using h
  simp [encode, decode_requestWord, decodeRequest, h'.1, h'.2]

theorem reqOther (requestId address : Byte) : Statement (.reqOther requestId address) := fun cfg h => by
  have h' : requestId ≠ cfg.binaryModeId := by simpa [wellFormed] using h
  simp [encode, decode_requestWord, decodeRequest, h']

theorem respGps : Statement .respGps := fun cfg _ => by
  simp [encode, decode, decodeResponse]

theorem respEam : Statement .respEam := fun cfg h => by
  have hne : responseHeader cfg .eam ≠ responseHeader cfg .gps := by
    intro he
    obtain ⟨hc, ht⟩ := responseHeader_eq cfg he
    have : cfg.headerOrder = .doc ∧ ¬ cfg.eamTextId = cfg.gpsTextId := by
      simpa [wellFormed, hc] using h
    exact this.2 (ht this.1)
  simp [encode, decode, decodeResponse, hne]

theorem refresh : Statement .refresh := fun _ _ => rfl

theorem detect : Statement .detect := fun _ _ => rfl

theorem beginSend (k : FrameKind) : Statement (.beginSend k) := fun _ _ => by cases k <;> rfl

theorem advance : Statement .advance := fun _ _ => rfl

theorem switchTx : Statement .switchTx := fun _ _ => rfl

theorem switchRx : Statement .switchRx := fun _ _ => rfl

theorem discardRx (reason : DiscardReason) : Statement (.discardRx reason) := fun _ _ => by
  cases reason <;> rfl

end Sys2Proof.Laws.DecodeEncode
end

