-- ==== Sys2Proof/Safety.lean ====
section
/-! DEFINITION. What counts as a safe state and a safe run, in the terms the claims use: the invariants of
spec/10_state.md rules R40 and R41, spec/43_request_detector.md rule R179, spec/41_frame_codec.md rules
R125 and R126, the phase transitions of spec/45_session_dispatcher.md rule R222, and the spacing of ticks
of spec/44_frame_transmitter.md rule R197. -/

namespace Sys2Proof.Machine

/-- The encoded thing comes in at the command port, the block's only one (R80), not at the bench port of
log 2. -/
def isHostCode : Code → Bool
  | .host _ => true
  | .request _ => false
  | .response _ => false
  | .subop _ _ => false

/-- An input the hardware has: not the bench port. -/
def hardwareInput : Input → Bool
  | .code c => isHostCode c
  | .agent _ => true
  | .reset => true

/-- Nothing waits at the bench port. -/
def benchFree (s : State) : Bool := s.inputs.all hardwareInput

/-- The next input is a reset of the block (R260). -/
def resetNext (s : State) : Bool :=
  match s.inputs with
  | .reset :: _ => true
  | _ => false

/-- The checksum of a list of bytes: their sum modulo 256 (R86, R196). -/
def sumBytes (bs : List Byte) : Byte := bs.foldl (fun c b => c + b) 0#8

/-- R40, R41 and R179, with the facts about the command order that carry them. -/
structure SessionInv (s : State) : Prop where
  /-- The configuration is a legal one (R9). -/
  legal : configLegal s.cfg = true
  /-- Nothing waits at the bench port (log 2). -/
  bench : benchFree s = true
  /-- `FAULT` holds 0 or a code of Table F (R35). -/
  faultCode : s.fault ≤ 0x07#8
  /-- A held port belongs to an initialised session (R23). -/
  heldInit : s.portAcquired = true → s.initDone = true
  /-- A send holds the port. -/
  sendHeld : s.sendActive = true → s.portAcquired = true
  /-- R40 (c), while sending. -/
  sendTx : s.sendActive = true → s.portMode = .tx
  /-- R40 (c), while not sending. -/
  idleRx : s.sendActive = false → s.portAcquired = true → s.portMode = .rx
  /-- R40 (d). -/
  sendDisarmed : s.sendActive = true → s.winArmed = false
  /-- R41: `CUR_OFFSET + CUR_REMAINING = len + 1` while sending. -/
  cursorCount : s.sendActive = true →
    s.curOffset.toNat + s.curRemaining.toNat = (frameLen s.cfg s.curFrame).toNat + 1
  /-- R41: `1 ≤ CUR_REMAINING` while sending. -/
  cursorLeft : s.sendActive = true → 1 ≤ s.curRemaining.toNat
  /-- R41: the cursor registers are 0 while not sending. -/
  cursorClear : s.sendActive = false →
    s.curFrame = .gps ∧ s.curOffset = 0#8 ∧ s.curRemaining = 0#8 ∧ s.cksum = 0#8
  /-- A window is armed only over a held port (92 D36). -/
  armedHeld : s.winArmed = true → s.portAcquired = true
  /-- R179: no armed window sees fewer than 2 bytes. -/
  armedPair : s.winArmed = true → 2 ≤ s.provider.rxFifo.length
  /-- The FIFO holds at most `RX_FIFO_CAPACITY` bytes (R69). -/
  fifoBound : s.provider.rxFifo.length ≤ s.cfg.rxFifoCapacity

/-- R31 and R41: while sending, `CKSUM` is the sum modulo 256 of the `CUR_OFFSET` bytes written last. -/
structure ChecksumInv (s : State) : Prop where
  /-- The bytes of this send are the provider's last. -/
  sent : s.sendActive = true → s.curOffset.toNat ≤ s.provider.tx.length
  /-- Their sum is the accumulator. -/
  sum : s.sendActive = true →
    s.cksum = sumBytes (s.provider.tx.drop (s.provider.tx.length - s.curOffset.toNat))

/-- Offset `i` of a frame of kind `k` is a header or stop offset, which only INIT writes (R38). -/
def constantOffset (cfg : Config) (k : FrameKind) (i : Byte) : Bool :=
  i == 0#8 || i == 1#8 || i == textOff cfg || i == frameLen cfg k - 1#8

/-- Offset `i` of a frame of kind `k` is one a refresh writes a value to (Tables G and E). The EAM warning
and alarm bytes are not among them: a refresh writes 0 there (R124). -/
def payloadOffset (k : FrameKind) (i : Byte) : Bool :=
  match k with
  | .gps => decide (7#8 ≤ i ∧ i ≤ 22#8) || decide (26#8 ≤ i ∧ i ≤ 28#8)
  | .eam => decide (20#8 ≤ i ∧ i ≤ 21#8) || decide (30#8 ≤ i ∧ i ≤ 31#8)

/-- The value INIT gives a header or stop offset of a frame of kind `k`, 0x00 elsewhere (R210). -/
def initialByte (cfg : Config) (k : FrameKind) (i : Byte) : Byte :=
  if i = frameLen cfg k - 1#8 then stopByte
  else if i = textOff cfg then textId cfg k
  else if i = 1#8 then classId cfg k
  else if i = 0#8 then startByte
  else 0x00#8

/-- What the frame buffers hold in every state a run reaches (R38, R88, R124, R125, log 18). -/
structure FrameInv (s : State) : Prop where
  /-- The cells are in canonical form. -/
  canonical : memWf s.mem = true
  /-- After INIT the headers and stop bytes stand (R38, R126). -/
  headers : s.initDone = true → ∀ b i, constantOffset s.cfg (bufKind b) i = true →
    rd s.mem b i = initialByte s.cfg (bufKind b) i
  /-- Every other byte that no compose rule gives a value is 0x00 (R88, R124, R125). -/
  zeros : ∀ b i, constantOffset s.cfg (bufKind b) i = false → payloadOffset (bufKind b) i = false →
    rd s.mem b i = 0x00#8

/-- The phase transitions of R222, with RELEASE from `ARMING`, which R154 allows and R222 does not list
(log 20); a step may also leave the phase as it is. -/
def phaseMayChange : Phase → Phase → Bool
  | _, .faulted => true
  | .uninit, .detached => true
  | .detached, .listening => true
  | .listening, .detached => true
  | .listening, .arming => true
  | .arming, .listening => true
  | .arming, .sending => true
  | .arming, .detached => true
  | .sending, .listening => true
  | p, q => decide (p = q)

/-- The command words of a run of ticks. -/
def tickInputs (times : List Word32) : List Input :=
  times.map (fun now => .code (hostWord 0x04#8 now))

/-- Every tick comes at least `gap` after the one before, the first at least `gap` after `t0`. -/
def spacedTicks (gap : Word32) (t0 : Word32) : List Word32 → Bool
  | [] => true
  | now :: rest => decide (gap ≤ elapsed t0 now) && spacedTicks gap now rest

/-- The stored bytes of the frame being sent that the cursor has not reached: `n` bytes from offset `i`. -/
def frameBytes (m : Mem) (k : FrameKind) (i n : Nat) : List Byte :=
  (List.range' i n).map (fun j => rd m (.frame k) (BitVec.ofNat 8 j))

/-- Every register of Table S at its reset value, every buffer byte 0x00 and the trace empty (R260). -/
structure ResetBlock (s : State) : Prop where
  /-- The session registers. -/
  session : s.initDone = false ∧ s.config = 0#32 ∧ s.fault = 0#8
  /-- The port registers. -/
  port : s.portAcquired = false ∧ s.portHandle = 0#32 ∧ s.portShared = false ∧ s.portMode = .rx ∧
    s.portBaud = 0#32 ∧ s.savedMode = .rx ∧ s.savedBaud = 0#32
  /-- The send cursor. -/
  cursor : s.sendActive = false ∧ s.curFrame = .gps ∧ s.curOffset = 0#8 ∧ s.curRemaining = 0#8 ∧
    s.cksum = 0#8
  /-- The timers and the request window. -/
  timers : s.tLastTx = 0#32 ∧ s.winArmed = false ∧ s.winT0 = 0#32 ∧ s.tLastRefresh = 0#32
  /-- The frame buffers. -/
  buffers : ∀ b i, rd s.mem b i = 0x00#8
  /-- The trace. -/
  trace : s.trace = []

/-- `s` after a command word with opcode `opcode` raised the fault `code` at time `t` (R241). -/
def afterFault (code opcode : Byte) (t : Word32) (s : State) : State :=
  { s with
    fault := code
    trace := s.trace ++ [{ name := .fault, a := code, b := opcode, t := t }]
    results := s.results ++ [(0x02#8 ++ code.setWidth 32 : BitVec 40)] }

/-- A frame kind as a trace argument: 0 = GPS, 1 = EAM (Table V). -/
def kindCode : FrameKind → Byte
  | .gps => 0x00#8
  | .eam => 0x01#8

/-- The request address that polls a kind (Table Q). -/
def pollAddress (cfg : Config) : FrameKind → Byte
  | .gps => cfg.gpsAddr
  | .eam => cfg.eamAddr

/-- Table G as data: the offsets a GPS compose writes and the byte each gets (R111, R121). -/
def gpsTable (cfg : Config) (v : Snapshot) : List (Byte × Byte) :=
  [(26#8, v.numSat), (27#8, fixChar cfg v)] ++
  (if v.fix = false ∧ cfg.gpsNofixHold = true then []
   else
    [(7#8, lo8 (speedCode v.speed)), (8#8, hi8 (speedCode v.speed)),
     (9#8, (coord cfg v.lat).h),
     (10#8, lo8 (coord cfg v.lat).dm), (11#8, hi8 (coord cfg v.lat).dm),
     (12#8, lo8 (coord cfg v.lat).sc), (13#8, hi8 (coord cfg v.lat).sc),
     (14#8, (coord cfg v.lon).h),
     (15#8, lo8 (coord cfg v.lon).dm), (16#8, hi8 (coord cfg v.lon).dm),
     (17#8, lo8 (coord cfg v.lon).sc), (18#8, hi8 (coord cfg v.lon).sc),
     (19#8, lo8 v.distHome), (20#8, hi8 v.distHome),
     (21#8, lo8 (altCode cfg v.alt)), (22#8, hi8 (altCode cfg v.alt)),
     (28#8, lo8 v.dirHome)])

/-- Table E as data: the offsets a Battery/EAM compose writes and the byte each gets (R122). -/
def eamTable (cfg : Config) (v : Snapshot) : List (Byte × Byte) :=
  [(warnOff cfg, 0x00#8), (4#8, 0x00#8), (5#8, 0x00#8), (20#8, lo8 v.vbat), (21#8, hi8 v.vbat),
   (30#8, lo8 v.vbat), (31#8, hi8 v.vbat)]

/-- The table of the frame kind. -/
def frameTable (cfg : Config) (v : Snapshot) : FrameKind → List (Byte × Byte)
  | .gps => gpsTable cfg v
  | .eam => eamTable cfg v

/-- R110's `write`: every policy but `GATE` always writes, `GATE` not the frame being sent. -/
def mayRefresh (s : State) (k : FrameKind) : Prop :=
  s.cfg.refreshPolicy = .gate → ¬ (s.sendActive = true ∧ s.curFrame = k)

/-- Byte `i` of buffer `b` after the current snapshot was composed into the frame of kind `k`: the table's
byte in R110's target, the old byte everywhere else. -/
def refreshedByte (s : State) (k : FrameKind) (b : Buf) (i : Byte) : Byte :=
  if b = (if s.cfg.refreshPolicy = .double then Buf.next k else Buf.frame k) then
    ((frameTable s.cfg s.snapshot k).lookup i).getD (rd s.mem b i)
  else rd s.mem b i

/-- The send cursor is one ADVANCE accepts: a byte is left, and a stored byte to send lies in the frame
(R41, R61). -/
def cursorInFrame (s : State) : Prop :=
  s.sendActive = true →
    s.curRemaining ≠ 0#8 ∧ (s.curRemaining ≠ 1#8 → s.curOffset < frameLen s.cfg s.curFrame)

end Sys2Proof.Machine
end

