-- ==== Sys2Proof/Certificates/Slice0/Obligations.lean ====
section
/-! DEFINITION. The statements for the provers. Each docstring names the rule of spec/ it formalises; a
result word is written as status byte ++ data, a trace record with the `now` of the tick or 0. -/

section SpecStatements

open Sys2Proof Sys2Proof.Machine

/-! ### Encoding -/

/-- Tables H, Q, R2 and U (30): decoding the encoding of a well-formed instruction gives it back, for every
instruction and every configuration. A sub-operation's operand bit is the model's own encoding (log 5), and
where the two response headers coincide only the GPS row is well-formed, the model's choice (log 29). -/
def Obligations.DecodeEncodeAgree : Prop :=
  ∀ i : Instr, Laws.DecodeEncode.Statement i

/-- The other direction: every code the decoder accepts is the encoding of the well-formed instruction it
answers, so no two codes stand for one instruction and no reserved encoding falls through. With the model's
choices of logs 5 and 29. -/
def Obligations.DecodeAcceptsOnlyEncodings : Prop :=
  ∀ (cfg : Config) (c : Code) (i : Instr), decode cfg c = .ok i →
    wellFormed cfg i = true ∧ encode cfg i = c

/-- Words written out from the tables of 30 decode to the instructions they stand for. That the bare number 2
of Table U stands for the GPS kind is the model's choice (log 5); Table U gives BEGIN_SEND's number only. -/
def Obligations.SampleWordsDecode : Prop :=
  decodeTableWord 40 0x0100001234 = some (.init 0x1234#32) ∧
  decodeTableWord 40 0x0200000000 = some (.acquire 0#32) ∧
  decodeTableWord 40 0x0400000FA0 = some (.tick 4000#32) ∧
  decodeTableWord 40 0x060000012B = some (.obsRead 0x12B#32) ∧
  decodeTableWord 40 0x0700000000 = none ∧
  decodeTableWord 16 0x808A = some .reqGps ∧
  decodeTableWord 16 0x8099 = some (.reqBinOther 0x99#8) ∧
  decodeTableWord 24 0x7C8EE0 = some .respEam ∧
  decodeTableWord 4 2 = some (.beginSend .gps) ∧
  decodeTableWord 4 7 = none

/-! ### The step -/

/-- A code that decodes to `i` is run: the step is `exec i` on the state with that code taken from the
inputs, and nothing else around it. That commands come as entries of `inputs` is the model's (log 1). -/
def Obligations.StepRunsTheDecodedInstruction : Prop :=
  ∀ (s : State) (c : Code) (i : Instr) (rest : List Input),
    configLegal s.cfg = true → s.inputs = .code c :: rest → decode s.cfg c = .ok i →
    step s = exec i { s with inputs := rest }

/-- R82: a reserved opcode, or an operand bit set that Table H says must be 0, raises `ILLEGAL_COMMAND`
and has no other effect. -/
def Obligations.IllegalCommandWordRaisesFault : Prop :=
  ∀ (s : State) (opcode : Byte) (op : Word32) (rest : List Input),
    configLegal s.cfg = true → s.inputs = .code (hostWord opcode op) :: rest → s.fault = 0#8 →
    ((opcode = 0x00#8 ∨ 0x07#8 ≤ opcode) ∨
      ((opcode = 0x02#8 ∨ opcode = 0x03#8 ∨ opcode = 0x05#8) ∧ op ≠ 0#32) ∨
      (opcode = 0x06#8 ∧ 0xFFFF#32 < op)) →
    step s = .next (afterFault 0x01#8 opcode 0#32 { s with inputs := rest })

/-- R80: every command word is answered with exactly one result word; nothing else answers. -/
def Obligations.OneResultPerCommandWord : Prop :=
  ∀ s t : State, step s = .next t →
    (∀ w rest, s.inputs = .code (.host w) :: rest → ∃ r, t.results = s.results ++ [r]) ∧
    ((∀ w rest, s.inputs ≠ .code (.host w) :: rest) → t.results = s.results)

/-- R44: outside a reset a step only appends to the trace. -/
def Obligations.TraceIsAppendOnly : Prop :=
  ∀ s t : State, step s = .next t → resetNext s = false → s.trace <+: t.trace

/-! ### Faults -/

/-- R243: while faulted every command word is answered and nothing else changes; QUERY_BAUD still answers
`BAUD` and OBS_READ a legal index. -/
def Obligations.FaultedBlockAnswersWithoutEffect : Prop :=
  ∀ (s : State) (opcode : Byte) (op : Word32) (rest : List Input),
    configLegal s.cfg = true → s.inputs = .code (hostWord opcode op) :: rest → s.fault ≠ 0#8 →
    step s = .next { s with
      inputs := rest
      results := s.results ++ [(0x01#8 ++
        (if opcode = 0x05#8 ∧ op = 0#32 then s.cfg.baud
         else if opcode = 0x06#8 ∧ op ≤ 0xFFFF#32 then (observe s op.toNat).getD 0#32
         else 0#32) : BitVec 40)] }

/-- R244: only a reset clears `FAULT`, and no second fault is raised in the fault state. -/
def Obligations.OnlyResetLeavesTheFaultState : Prop :=
  ∀ s t : State, s.fault ≠ 0#8 → step s = .next t →
    (resetNext s = true → t.fault = 0#8) ∧
    (resetNext s = false → t.fault = s.fault ∧
      ∃ new, t.trace = s.trace ++ new ∧ ∀ e ∈ new, e.name ≠ .fault)

/-- R211: INIT while a port is held raises `INIT_WHILE_ACQUIRED`. -/
def Obligations.InitWhileAcquiredFaults : Prop :=
  ∀ (s : State) (cfg : Word32), s.fault = 0#8 → s.portAcquired = true →
    exec (.init cfg) s = .next (afterFault 0x07#8 0x01#8 0#32 s)

/-- R213: TICK requires INIT, then ACQUIRE. -/
def Obligations.TickNeedsInitAndAcquire : Prop :=
  ∀ (s : State) (now : Word32), s.fault = 0#8 →
    (s.initDone = false → exec (.tick now) s = .next (afterFault 0x02#8 0x04#8 now s)) ∧
    (s.initDone = true → s.portAcquired = false →
      exec (.tick now) s = .next (afterFault 0x04#8 0x04#8 now s))

/-- R150, R154 and R245: the preconditions of ACQUIRE and RELEASE, in order. -/
def Obligations.AcquireAndReleasePreconditions : Prop :=
  ∀ s : State, s.fault = 0#8 →
    (s.initDone = false → exec (.acquire 0#32) s = .next (afterFault 0x02#8 0x02#8 0#32 s)) ∧
    (s.initDone = true → s.portAcquired = true →
      exec (.acquire 0#32) s = .next (afterFault 0x03#8 0x02#8 0#32 s)) ∧
    (s.portAcquired = false → exec (.release 0#32) s = .next (afterFault 0x04#8 0x03#8 0#32 s)) ∧
    (s.portAcquired = true → s.sendActive = true →
      exec (.release 0#32) s = .next (afterFault 0x06#8 0x03#8 0#32 s))

/-- R241: a command that faults changes nothing in the block but `FAULT` and the trace, whatever the
command and the cause; only the failed ACQUIRE has called the provider, and then only `FindPort` and
`OpenPort`. -/
def Obligations.FaultingCommandChangesOnlyFaultAndTrace : Prop :=
  ∀ (s t : State) (opcode : Byte) (op : Word32) (rest : List Input),
    s.inputs = .code (hostWord opcode op) :: rest → s.fault = 0#8 → step s = .next t →
    t.fault ≠ 0#8 →
    t.fault ≤ 0x07#8 ∧
    t = { afterFault t.fault opcode (if opcode = 0x04#8 then op else 0#32) s with
      inputs := rest
      provider := { s.provider with calls := t.provider.calls } } ∧
    (t.fault ≠ 0x05#8 → t.provider.calls = s.provider.calls) ∧
    (t.fault = 0x05#8 → t.provider.calls = s.provider.calls ++
      [.findPort s.cfg.functionTag, .openPort s.cfg.functionTag s.cfg.baud .rx s.config])

/-! ### Reset -/

/-- R260: reset clears every register of Table S, every buffer byte and the trace, calls no provider
primitive, and leaves the block `UNINIT`; it is also the model's initial state. -/
def Obligations.ResetClearsTheBlockOnly : Prop :=
  ResetBlock State.reset ∧
  ∀ (s : State) (rest : List Input), configLegal s.cfg = true → s.inputs = .reset :: rest →
    ∃ t, step s = .next t ∧ ResetBlock t ∧ phase t = .uninit ∧ t.provider = s.provider ∧
      t.snapshot = s.snapshot ∧ t.cfg = s.cfg ∧ t.results = s.results ∧ t.inputs = rest

/-- R261: what the block answers after a reset and before INIT. -/
def Obligations.AnswersAfterReset : Prop :=
  ∀ (s r : State) (rest : List Input), s.inputs = .reset :: rest → step s = .next r →
    exec (.queryBaud 0#32) r =
      .next { r with results := r.results ++ [(0x00#8 ++ r.cfg.baud : BitVec 40)] } ∧
    exec (.release 0#32) r = .next (afterFault 0x04#8 0x03#8 0#32 r) ∧
    exec (.acquire 0#32) r = .next (afterFault 0x02#8 0x02#8 0#32 r) ∧
    (∀ now, exec (.tick now) r = .next (afterFault 0x02#8 0x04#8 now r)) ∧
    (∀ i : BitVec 32, i ≤ 0x0008#32 →
      exec (.obsRead i) r = .next { r with results := r.results ++ [(0x00#8 ++ 0#32 : BitVec 40)] }) ∧
    (∀ (b : Buf) (j : Byte), j < frameLen r.cfg (bufKind b) →
      exec (.obsRead (BitVec.ofNat 32 (bufBase b + j.toNat))) r =
        .next { r with results := r.results ++ [(0x00#8 ++ 0#32 : BitVec 40)] })

/-! ### Host commands -/

/-- R210: INIT completes while no port is held. It stores the handle, clears the window and the timers,
and leaves every frame buffer with its header, its stop byte and a zero payload. Its write of `T_LAST_TX` is
R210's and Table S's, against the words of R198 (log 30). -/
def Obligations.InitWritesHeadersAndClearsPayload : Prop :=
  ∀ (s : State) (cfg : Word32), configLegal s.cfg = true → s.fault = 0#8 → s.portAcquired = false →
    ∃ m, exec (.init cfg) s = .next { s with
        config := cfg, mem := m, winArmed := false, winT0 := 0#32, tLastTx := 0#32
        tLastRefresh := 0#32, initDone := true
        trace := s.trace ++ [{ name := .init, a := 0x00#8, b := 0x00#8, t := 0#32 }]
        results := s.results ++ [(0x00#8 ++ 0#32 : BitVec 40)] } ∧
      ∀ b : Buf,
        rd m b 0#8 = 0x7C#8 ∧ rd m b 1#8 = classId s.cfg (bufKind b) ∧
        rd m b (textOff s.cfg) = textId s.cfg (bufKind b) ∧
        rd m b (frameLen s.cfg (bufKind b) - 1#8) = 0x7D#8 ∧
        (∀ i : Byte, i < frameLen s.cfg (bufKind b) → constantOffset s.cfg (bufKind b) i = false →
          rd m b i = 0x00#8) ∧
        (∀ i : Byte, frameLen s.cfg (bufKind b) ≤ i → rd m b i = rd s.mem b i)

/-- R150, R151: ACQUIRE completes on an already open port of the function tag: it saves the port's mode
and baud, sets the protocol baud and receive mode, and registers the tag. -/
def Obligations.AcquireTakesAFoundPort : Prop :=
  ∀ (s : State) (p : Port), s.fault = 0#8 → s.initDone = true → s.portAcquired = false →
    foundPort s.cfg.functionTag s.provider = some p →
    exec (.acquire 0#32) s = .next { s with
      savedMode := p.mode, savedBaud := p.baud, portHandle := p.handle, portShared := true
      portBaud := s.cfg.baud, portMode := .rx, portAcquired := true, winArmed := false
      provider := providerBeginFunction p.handle s.cfg.functionTag
        (providerSetMode s.cfg.providerDrainsTx p.handle .rx
          (providerSetBaud p.handle s.cfg.baud
            (callPort (.findPort s.cfg.functionTag) s.provider)))
      trace := s.trace ++ [{ name := .mode, a := 0x00#8, b := 0x00#8, t := 0#32 },
        { name := .acquire, a := 0x01#8, b := 0x00#8, t := 0#32 }]
      results := s.results ++ [(0x00#8 ++ 0#32 : BitVec 40)] }

/-- R150, R152: ACQUIRE completes by opening a port of its own, with no `SetMode`, `SetBaud` or
`BeginFunction`; the saved mode and baud are the opened port's, which need not be
the arguments' (log 16). That the new port takes the place of any listed port of its handle is the model's
reading of the registry (log 15). -/
def Obligations.AcquireOpensAPort : Prop :=
  ∀ s : State, s.fault = 0#8 → s.initDone = true → s.portAcquired = false →
    foundPort s.cfg.functionTag s.provider = none → s.provider.openReply.handle ≠ 0#32 →
    ∃ ports, exec (.acquire 0#32) s = .next { s with
        savedMode := s.provider.openReply.mode.getD .rx
        savedBaud := s.provider.openReply.baud.getD s.cfg.baud
        portHandle := s.provider.openReply.handle, portShared := false
        portBaud := s.cfg.baud, portMode := .rx, portAcquired := true, winArmed := false
        provider := { s.provider with
          ports := ports
          calls := s.provider.calls ++ [.findPort s.cfg.functionTag,
            .openPort s.cfg.functionTag s.cfg.baud .rx s.config] }
        trace := s.trace ++ [{ name := .acquire, a := 0x00#8, b := 0x00#8, t := 0#32 }]
        results := s.results ++ [(0x00#8 ++ 0#32 : BitVec 40)] } ∧
      ports = { handle := s.provider.openReply.handle
                mode := s.provider.openReply.mode.getD .rx
                baud := s.provider.openReply.baud.getD s.cfg.baud
                tags := [s.cfg.functionTag] } ::
        s.provider.ports.filter (fun q => q.handle != s.provider.openReply.handle)

/-- R153: when no port is found and `OpenPort` returns 0, ACQUIRE raises `ACQUIRE_FAILED`; there is no
partial acquisition. -/
def Obligations.AcquireFailureFaults : Prop :=
  ∀ s : State, s.fault = 0#8 → s.initDone = true → s.portAcquired = false →
    foundPort s.cfg.functionTag s.provider = none → s.provider.openReply.handle = 0#32 →
    exec (.acquire 0#32) s = .next (afterFault 0x05#8 0x02#8 0#32 { s with
      provider := { s.provider with
        calls := s.provider.calls ++ [.findPort s.cfg.functionTag,
          .openPort s.cfg.functionTag s.cfg.baud .rx s.config] } })

/-- R154: RELEASE completes while a port is held and no send is active: the saved mode and baud are
restored and the function tag is unregistered. -/
def Obligations.ReleaseRestoresThePort : Prop :=
  ∀ s : State, s.fault = 0#8 → s.portAcquired = true → s.sendActive = false →
    exec (.release 0#32) s = .next { s with
      portMode := s.savedMode, portBaud := s.savedBaud
      portAcquired := false, portHandle := 0#32, portShared := false, winArmed := false
      provider := providerEndFunction s.portHandle s.cfg.functionTag
        (providerSetBaud s.portHandle s.savedBaud
          (providerSetMode s.cfg.providerDrainsTx s.portHandle s.savedMode s.provider))
      trace := s.trace ++
        [{ name := .mode, a := if s.savedMode = .tx then 0x01#8 else 0x00#8, b := 0x00#8, t := 0#32 },
         { name := .release, a := 0x00#8, b := 0x00#8, t := 0#32 }]
      results := s.results ++ [(0x00#8 ++ 0#32 : BitVec 40)] }

/-- R28, R151 and R154 together: a found port acquired and then released has the mode and baud it had
before, and is no longer registered for the tag; no other port has changed. -/
def Obligations.AcquireThenReleaseRestoresTheFoundPort : Prop :=
  ∀ (s : State) (p : Port), s.fault = 0#8 → s.initDone = true → s.portAcquired = false →
    s.sendActive = false → foundPort s.cfg.functionTag s.provider = some p →
    (∀ q ∈ s.provider.ports, q.handle = p.handle → q = p) →
    ∃ t u, exec (.acquire 0#32) s = .next t ∧ exec (.release 0#32) t = .next u ∧
      u.provider.ports = s.provider.ports.map (fun q =>
        if q = p then { q with tags := q.tags.filter (fun g => g != s.cfg.functionTag) } else q) ∧
      u.provider.rxFifo = s.provider.rxFifo ∧ u.mem = s.mem ∧
      u.portMode = p.mode ∧ u.portBaud = p.baud ∧ phase u = .detached

/-- R65 to R67: what each port-changing call of the provider does: the port of the given handle changes, and
no other; the call is recorded; the FIFO, the bytes given to transmit and what `OpenPort` will answer stay.
The registry as a list of ports, and a newly opened port in place of any of its handle, are the model's reading
(log 15); that an opened port may differ from the arguments is log 16. -/
def Obligations.PortCallsChangeTheNamedPortOnly : Prop :=
  ∀ (drains : Bool) (h n tag cfg : Word32) (m : PortMode) (p : Provider),
    ((providerSetMode drains h m p).ports =
        p.ports.map (fun q => if q.handle = h then { q with mode := m } else q) ∧
      (providerSetMode drains h m p).calls = p.calls ++ [.setMode m] ∧
      (providerSetMode drains h m p).rxFifo = p.rxFifo ∧
      (providerSetMode drains h m p).tx = p.tx ∧
      (providerSetMode drains h m p).openReply = p.openReply) ∧
    providerSetBaud h n p =
      { p with
        ports := p.ports.map (fun q => if q.handle = h then { q with baud := n } else q)
        calls := p.calls ++ [.setBaud n] } ∧
    providerBeginFunction h tag p =
      { p with
        ports := p.ports.map (fun q =>
          if q.handle = h then { q with tags := if tag ∈ q.tags then q.tags else tag :: q.tags } else q)
        calls := p.calls ++ [.beginFunction h tag] } ∧
    providerEndFunction h tag p =
      { p with
        ports := p.ports.map (fun q =>
          if q.handle = h then { q with tags := q.tags.filter (fun g => g != tag) } else q)
        calls := p.calls ++ [.endFunction h tag] } ∧
    (p.openReply.handle = 0#32 →
      providerOpenPort tag n m cfg p = { p with calls := p.calls ++ [.openPort tag n m cfg] }) ∧
    (p.openReply.handle ≠ 0#32 →
      providerOpenPort tag n m cfg p =
        { p with
          ports := { handle := p.openReply.handle, mode := p.openReply.mode.getD m
                     baud := p.openReply.baud.getD n, tags := [tag] } ::
            p.ports.filter (fun q => q.handle != p.openReply.handle)
          calls := p.calls ++ [.openPort tag n m cfg] }) ∧
    (∀ q, foundPort tag p = some q → q ∈ p.ports ∧ tag ∈ q.tags ∧ q.handle ≠ 0#32) ∧
    (foundPort tag p = none → ∀ q ∈ p.ports, tag ∈ q.tags → q.handle = 0#32)

/-- R218: QUERY_BAUD in every state: the constant `BAUD`, in the fault state too, and `ILLEGAL_COMMAND`
for a nonzero operand. -/
def Obligations.QueryBaudAnswersInEveryPhase : Prop :=
  ∀ (s : State) (op : Word32),
    exec (.queryBaud op) s = .next
      (if s.fault ≠ 0#8 then
        { s with results := s.results ++
            [(0x01#8 ++ (if op = 0#32 then s.cfg.baud else 0#32) : BitVec 40)] }
      else if op ≠ 0#32 then afterFault 0x01#8 0x05#8 0#32 s
      else { s with results := s.results ++ [(0x00#8 ++ s.cfg.baud : BitVec 40)] })

/-- R219 and Table O: OBS_READ answers every index of Table O with its content and every other index with
`BAD_INDEX`, and changes nothing else. -/
def Obligations.ObsReadAnswersTableO : Prop :=
  ∀ s : State, s.fault = 0#8 →
    (∀ iv ∈ ([(0x0000#32, s.cksum ++ s.curRemaining ++ s.curOffset ++ bitOfKind s.curFrame ++
          BitVec.ofBool s.sendActive ++ BitVec.ofBool s.winArmed ++ modeBit s.savedMode ++
          modeBit s.portMode ++ BitVec.ofBool s.portShared ++ BitVec.ofBool s.portAcquired ++
          BitVec.ofBool s.initDone),
        (0x0001#32, 0#24 ++ s.fault), (0x0002#32, s.winT0), (0x0003#32, s.tLastTx),
        (0x0004#32, s.tLastRefresh), (0x0005#32, s.portBaud), (0x0006#32, s.savedBaud),
        (0x0007#32, s.config), (0x0008#32, s.portHandle)] : List (BitVec 32 × BitVec 32)),
      exec (.obsRead iv.1) s =
        .next { s with results := s.results ++ [(0x00#8 ++ iv.2 : BitVec 40)] }) ∧
    (∀ bi ∈ ([(.frame .gps, 0x0100), (.frame .eam, 0x0200), (.next .gps, 0x0300),
        (.next .eam, 0x0400)] : List (Buf × Nat)),
      ∀ j : Byte, j < frameLen s.cfg (bufKind bi.1) →
        exec (.obsRead (BitVec.ofNat 32 (bi.2 + j.toNat))) s =
          .next { s with results := s.results ++ [(0x00#8 ++ 0#24 ++ rd s.mem bi.1 j : BitVec 40)] }) ∧
    (∀ i : Nat, 8 < i → i ≤ 0xFFFF →
      ¬ (0x0100 ≤ i ∧ i < 0x0100 + s.cfg.gpsLen.toNat) →
      ¬ (0x0200 ≤ i ∧ i < 0x0200 + s.cfg.eamLen.toNat) →
      ¬ (0x0300 ≤ i ∧ i < 0x0300 + s.cfg.gpsLen.toNat) →
      ¬ (0x0400 ≤ i ∧ i < 0x0400 + s.cfg.eamLen.toNat) →
        exec (.obsRead (BitVec.ofNat 32 i)) s =
          .next { s with results := s.results ++ [(0x03#8 ++ 0#32 : BitVec 40)] })

/-! ### TICK -/

/-- R212, R214 to R217: a TICK that passes its checks completes, and is REFRESH, DETECT, BEGIN_SEND and
ADVANCE in that order, each under its step's own test at the tick's `now`, with the result bits of R212. -/
def Obligations.TickRunsItsFourSteps : Prop :=
  ∀ (s : State) (now : Word32), configLegal s.cfg = true → s.fault = 0#8 → s.initDone = true →
    s.portAcquired = true → cursorInFrame s →
    ∃ (s1 d s2 s3 : State) (mask : Word32),
      (if s.cfg.refreshIntervalUs ≤ now - s.tLastRefresh then
        ∃ r, exec .refresh { s with now := now } = .next r ∧ s1 = { r with tLastRefresh := now }
      else s1 = { s with now := now }) ∧
      (if s1.sendActive = true then s2 = s1
      else exec .detect s1 = .next d ∧
        (d.detected = none → s2 = d) ∧
        (∀ k, d.detected = some k → exec (.beginSend k) d = .next s2)) ∧
      (if s2.sendActive = true ∧ s.cfg.interByteUs ≤ now - s2.tLastTx then exec .advance s2 = .next s3
      else s3 = s2) ∧
      exec (.tick now) s =
        .next { s3 with results := s3.results ++ [(0x00#8 ++ mask : BitVec 40)] } ∧
      (mask.getLsbD 0 = true ↔ s.cfg.refreshIntervalUs ≤ now - s.tLastRefresh) ∧
      (mask.getLsbD 1 = true ↔ s1.sendActive = false) ∧
      (mask.getLsbD 2 = true ↔ s1.sendActive = false ∧ s2.sendActive = true) ∧
      (mask.getLsbD 3 = true ↔
        s2.sendActive = true ∧ s.cfg.interByteUs ≤ now - s2.tLastTx) ∧
      (mask.getLsbD 4 = true ↔ s2.sendActive = true ∧ s3.sendActive = false) ∧
      mask < 32#32

/-- R246: none of the sub-operations can raise a fault, in any state, and a TICK that passes its checks
answers `OK`. -/
def Obligations.NoFaultInsideATick : Prop :=
  (∀ (i : Instr) (s t : State), i ∈ ([.refresh, .detect, .beginSend .gps, .beginSend .eam, .advance,
      .switchTx, .switchRx, .discardRx .noise, .discardRx .endOfSend] : List Instr) →
    exec i s = .next t →
      t.fault = s.fault ∧ ∃ new, t.trace = s.trace ++ new ∧ ∀ e ∈ new, e.name ≠ .fault) ∧
  (∀ (s : State) (now : Word32), configLegal s.cfg = true → s.fault = 0#8 → s.initDone = true →
    s.portAcquired = true → cursorInFrame s →
    ∃ (t : State) (mask : Word32), exec (.tick now) s = .next t ∧ t.fault = 0#8 ∧
      t.results = s.results ++ [(0x00#8 ++ mask : BitVec 40)])

/-- R181: a TICK that finds a send active polls no request: the FIFO stays whole until the send completes
and is emptied by the tick that completes it; nothing is armed, consumed or begun. -/
def Obligations.SendingTickReadsNoRequest : Prop :=
  ∀ (s t : State) (now : Word32), s.sendActive = true → exec (.tick now) s = .next t →
    (t.sendActive = true → t.provider.rxFifo = s.provider.rxFifo) ∧
    (t.sendActive = false → t.provider.rxFifo = []) ∧
    t.winArmed = s.winArmed ∧ t.winT0 = s.winT0 ∧
    ∃ new, t.trace = s.trace ++ new ∧
      ∀ e ∈ new, e.name ≠ .arm ∧ e.name ≠ .consume ∧ e.name ≠ .beginSend

/-- R180 with R175, R176, R190 and R220 (b): a settled GPS or EAM request at an idle detector starts
exactly one send, of its own kind, in the tick that consumes it, and that tick writes no byte. -/
def Obligations.SettledRequestStartsItsSend : Prop :=
  ∀ (s : State) (now : Word32) (k : FrameKind), configLegal s.cfg = true → s.fault = 0#8 →
    s.initDone = true → s.portAcquired = true → s.sendActive = false → s.winArmed = true →
    s.provider.rxFifo = [s.cfg.binaryModeId, pollAddress s.cfg k] →
    s.cfg.settleUs ≤ now - s.winT0 → now - s.tLastRefresh < s.cfg.refreshIntervalUs →
    exec (.tick now) s = .next { s with
      now := now, detected := some k, winArmed := false
      mem := swapIn s.cfg k s.mem
      sendActive := true, curFrame := k, curOffset := 0#8
      curRemaining := frameLen s.cfg k + 1#8, cksum := 0#8
      portMode := .tx, tLastTx := now
      provider := providerSetMode s.cfg.providerDrainsTx s.portHandle .tx
        { s.provider with rxFifo := [] }
      trace := s.trace ++
        [{ name := .consume, a := s.cfg.binaryModeId, b := pollAddress s.cfg k, t := now },
         { name := .beginSend, a := kindCode k, b := 0x00#8, t := now },
         { name := .mode, a := 0x01#8, b := 0x00#8, t := now }]
      results := s.results ++ [(0x00#8 ++ 0x06#32 : BitVec 40)] }

/-- R83 and R176: what a consumption does next is the action of the row of Table Q that the two consumed
bytes decode to. -/
def Obligations.ConsumptionRunsTheRequestRow : Prop :=
  ∀ (s : State) (requestId address : Byte), s.sendActive = false → s.winArmed = true →
    s.provider.rxFifo = [requestId, address] → s.cfg.settleUs ≤ s.now - s.winT0 →
    ∃ d t i, exec .detect s = .next d ∧
      decode s.cfg (requestWord requestId address) = .ok i ∧ exec i d = .next t ∧
      (d.detected = none → t = d) ∧
      (∀ k, d.detected = some k → exec (.beginSend k) d = .next t)

/-! ### Frame codec -/

/-- R110, R111, R120 to R124: REFRESH completes in every state; it composes each frame the policy lets it
write, from one snapshot, into the policy's buffer, writes exactly the offsets of Tables G and E there, and
changes nothing else but the trace. -/
def Obligations.RefreshWritesTablesGAndE : Prop :=
  ∀ s : State, ∃ (m : Mem) (mask : Byte), exec .refresh s = .next { s with
      mem := m
      trace := s.trace ++ [{ name := .refresh, a := mask, b := 0x00#8, t := s.now }] } ∧
    (mask.getLsbD 0 = true ↔ mayRefresh s .gps) ∧ (mask.getLsbD 1 = true ↔ mayRefresh s .eam) ∧
    mask < 4#8 ∧
    ∀ (b : Buf) (i : Byte),
      (mayRefresh s (bufKind b) → rd m b i = refreshedByte s (bufKind b) b i) ∧
      (¬ mayRefresh s (bufKind b) → rd m b i = rd s.mem b i)

/-- The two response rows (Table R2, R111, R122; the model's reading of a row, log 4): each completes in
every state and composes its own frame as a refresh would; every other byte and register stays. -/
def Obligations.ResponseRowsComposeTheirFrame : Prop :=
  ∀ (s : State) (k : FrameKind) (i : Instr),
    ((k = .gps ∧ i = .respGps) ∨ (k = .eam ∧ i = .respEam)) →
    ∃ m, exec i s = .next { s with mem := m } ∧
      ∀ (b : Buf) (j : Byte),
        (bufKind b = k → mayRefresh s k → rd m b j = refreshedByte s k b j) ∧
        (¬ (bufKind b = k ∧ mayRefresh s k) → rd m b j = rd s.mem b j)

/-- R126: REFRESH never writes offset 0, 1, `TEXT_OFF` or `len - 1` of any buffer. -/
def Obligations.RefreshKeepsHeadersAndStop : Prop :=
  ∀ s : State, configLegal s.cfg = true → ∃ t, exec .refresh s = .next t ∧
    ∀ (b : Buf) (i : Byte), constantOffset s.cfg (bufKind b) i = true → rd t.mem b i = rd s.mem b i

/-- R112: the fix character at GPS offset 27. `FIX_CHAR_DGPS` is never produced. -/
def Obligations.FixCharacterFollowsFixAndCount : Prop :=
  ∀ (cfg : Config) (b : Buf) (v : Snapshot) (m : Mem),
    (v.fix = false → rd (composeGps cfg b v m) b 27#8 = cfg.fixCharNone) ∧
    (v.fix = true → 5#8 ≤ v.numSat → rd (composeGps cfg b v m) b 27#8 = cfg.fixChar3d) ∧
    (v.fix = true → v.numSat < 5#8 → rd (composeGps cfg b v m) b 27#8 = cfg.fixChar2d)

/-- R113: the fields of `Coord` in `MAGNITUDE` mode: their bounds, the hemisphere flag, and that decoding
them recovers the magnitude within one unit of the `sec` field (1e-4 minute, that is 100 of 6e-7 degree). -/
def Obligations.CoordFieldsRecoverTheCoordinate : Prop :=
  ∀ v : Word32,
    let deg := (coordMagnitude v).dm.toNat / 100
    let min := (coordMagnitude v).dm.toNat % 100
    let sc := (coordMagnitude v).sc.toNat
    deg ≤ 214 ∧ min ≤ 59 ∧ sc ≤ 9999 ∧
    (coordMagnitude v).h = (if v.toInt < 0 then 1#8 else 0#8) ∧
    deg * 60000000 + min * 1000000 + sc * 100 ≤ v.toInt.natAbs * 6 ∧
    v.toInt.natAbs * 6 < deg * 60000000 + min * 1000000 + sc * 100 + 100

/-- R114: for a coordinate not below 0 the two sign modes agree; for one below 0 `SIGNED_TRUNC` carries
the sign into both 16-bit fields as well. -/
def Obligations.CoordSignModesCompared : Prop :=
  ∀ v : Word32,
    (0 ≤ v.toInt → coordSignedTrunc v = coordMagnitude v) ∧
    (v.toInt < 0 → coordSignedTrunc v =
      { h := (coordMagnitude v).h, dm := -(coordMagnitude v).dm, sc := -(coordMagnitude v).sc })

/-- R116: the speed code divides before it multiplies, is 0 below 100, never wraps, and a GPS compose that
writes its speed field writes it little-endian at offsets 7 and 8. -/
def Obligations.SpeedCodeNeverWraps : Prop :=
  (∀ x : Half, (speedCode x).toNat = x.toNat / 100 * 36 ∧ (speedCode x).toNat ≤ 23580 ∧
    (x < 100#16 → speedCode x = 0#16)) ∧
  ∀ (cfg : Config) (b : Buf) (v : Snapshot) (m : Mem), (v.fix = true ∨ cfg.gpsNofixHold = false) →
    (rd (composeGps cfg b v m) b 7#8).toNat = (v.speed.toNat / 100 * 36) % 256 ∧
    (rd (composeGps cfg b v m) b 8#8).toNat = (v.speed.toNat / 100 * 36) / 256

/-- R117: the altitude code truncates toward zero and wraps modulo 2^16, with the rule's corner cases under
`ALT_OFFSET` = 500, and a GPS compose that writes it writes it little-endian at offsets 21 and 22. -/
def Obligations.AltitudeCodeTruncatesAndWraps : Prop :=
  (∀ (cfg : Config) (a : Word32),
    (0 ≤ a.toInt → altCode cfg a = cfg.altOffset + BitVec.ofNat 16 (a.toInt.natAbs / 10)) ∧
    (a.toInt < 0 → altCode cfg a = cfg.altOffset - BitVec.ofNat 16 (a.toInt.natAbs / 10)) ∧
    (cfg.altOffset = 500#16 → ∀ ac ∈ ([(0, 500#16), (-5000, 0#16), (-5009, 0#16), (-5010, 0xFFFF#16),
        (650350, 0xFFFF#16), (650360, 0#16), (1234, 0x026F#16)] : List (Int × BitVec 16)),
      a.toInt = ac.1 → altCode cfg a = ac.2)) ∧
  ∀ (cfg : Config) (b : Buf) (v : Snapshot) (m : Mem), (v.fix = true ∨ cfg.gpsNofixHold = false) →
    (rd (composeGps cfg b v m) b 22#8 ++ rd (composeGps cfg b v m) b 21#8 : BitVec 16) =
      altCode cfg v.alt

/-! ### Request detector -/

/-- R171: fewer than 2 bytes waiting. -/
def Obligations.DetectWaitsForTwoBytes : Prop :=
  ∀ s : State, s.sendActive = false → s.provider.rxFifo.length < 2 →
    exec .detect s = .next { s with detected := none }

/-- R172: more than 2 bytes waiting. -/
def Obligations.DetectDiscardsNoise : Prop :=
  ∀ s : State, s.sendActive = false → 2 < s.provider.rxFifo.length →
    exec .detect s = .next { s with
      detected := none
      winArmed := false
      provider := { s.provider with rxFifo := [] }
      trace := s.trace ++
        [{ name := .discard, a := BitVec.ofNat 8 s.provider.rxFifo.length, b := 0x00#8, t := s.now }] }

/-- R173: exactly 2 bytes waiting, window not armed. -/
def Obligations.DetectArmsTheWindow : Prop :=
  ∀ s : State, s.sendActive = false → s.provider.rxFifo.length = 2 → s.winArmed = false →
    exec .detect s = .next { s with
      detected := none
      winArmed := true
      winT0 := s.now
      trace := s.trace ++ [{ name := .arm, a := 0x00#8, b := 0x00#8, t := s.now }] }

/-- R174: exactly 2 bytes waiting, window armed, settle time not elapsed. -/
def Obligations.DetectWaitsForTheSettleTime : Prop :=
  ∀ s : State, s.sendActive = false → s.provider.rxFifo.length = 2 → s.winArmed = true →
    s.now - s.winT0 < s.cfg.settleUs →
    exec .detect s = .next { s with detected := none }

/-- R175 and R176: exactly 2 bytes waiting, window armed, settle time elapsed: both bytes are consumed,
the window is disarmed and the pair is classified; an ignored request is consumed too. -/
def Obligations.DetectConsumesASettledRequest : Prop :=
  ∀ (s : State) (id addr : Byte), s.sendActive = false → s.provider.rxFifo = [id, addr] →
    s.winArmed = true → s.cfg.settleUs ≤ s.now - s.winT0 →
    exec .detect s = .next { s with
      detected :=
        if id = s.cfg.binaryModeId ∧ addr = s.cfg.gpsAddr then some .gps
        else if id = s.cfg.binaryModeId ∧ addr = s.cfg.eamAddr then some .eam
        else none
      winArmed := false
      provider := { s.provider with rxFifo := [] }
      trace := s.trace ++ [{ name := .consume, a := id, b := addr, t := s.now }] }

/-! ### Frame transmitter and mode switches -/

/-- R190, Table Q: BEGIN_SEND with no send active, and the two request rows whose action it is, complete:
the cursor is created, the port goes to transmit, no byte is written. That a request row run alone does
its action only is the model's reading (log 3), and the time is the model's `now` (log 6). -/
def Obligations.BeginSendCreatesTheCursor : Prop :=
  ∀ (s : State) (k : FrameKind) (i : Instr), s.sendActive = false →
    (i = .beginSend k ∨ (k = .gps ∧ i = .reqGps) ∨ (k = .eam ∧ i = .reqEam)) →
    exec i s = .next { s with
      mem := swapIn s.cfg k s.mem
      sendActive := true, curFrame := k, curOffset := 0#8
      curRemaining := frameLen s.cfg k + 1#8, cksum := 0#8
      provider := providerSetMode s.cfg.providerDrainsTx s.portHandle .tx s.provider
      portMode := .tx
      tLastTx := s.now
      trace := s.trace ++
        [{ name := .beginSend, a := kindCode k, b := 0x00#8, t := s.now },
         { name := .mode, a := 0x01#8, b := 0x00#8, t := s.now }] }

/-- R191: BEGIN_SEND during a send changes nothing but the trace, and no TICK ever takes that path. -/
def Obligations.BeginSendIsRejectedDuringASend : Prop :=
  (∀ (s : State) (k : FrameKind), s.sendActive = true →
    exec (.beginSend k) s = .next { s with
      trace := s.trace ++
        [{ name := .beginRejected, a := kindCode k, b := 0x00#8, t := s.now }] }) ∧
  ∀ (s t : State) (now : Word32), exec (.tick now) s = .next t →
    ∃ new, t.trace = s.trace ++ new ∧ ∀ e ∈ new, e.name ≠ .beginRejected

/-- R192: only under `DOUBLE`, and only with no send active, BEGIN_SEND copies the next-refresh buffer
into the send buffer; no other byte changes. -/
def Obligations.BeginSendCopiesOnlyUnderDouble : Prop :=
  ∀ (s : State) (k : FrameKind), ∃ t, exec (.beginSend k) s = .next t ∧
    ∀ (b : Buf) (i : Byte), rd t.mem b i =
      if s.sendActive = false ∧ s.cfg.refreshPolicy = .double ∧ b = .frame k ∧
          i < frameLen s.cfg k then rd s.mem (.next k) i
      else rd s.mem b i

/-- R193 to R195: ADVANCE completes for a sound cursor: with more than one byte left it sends the stored
byte at the cursor, read now; with one left it sends the checksum, clears the cursor, returns the port to
receive and discards what waits. -/
def Obligations.AdvanceSendsOneByteOrTheChecksum : Prop :=
  ∀ s : State, s.sendActive = true →
    (2#8 ≤ s.curRemaining → s.curOffset < frameLen s.cfg s.curFrame →
      exec .advance s = .next { s with
        curRemaining := s.curRemaining - 1#8
        cksum := s.cksum + rd s.mem (.frame s.curFrame) s.curOffset
        curOffset := s.curOffset + 1#8
        provider := { s.provider with
          tx := s.provider.tx ++ [rd s.mem (.frame s.curFrame) s.curOffset], txSinceRx := true }
        tLastTx := s.now
        trace := s.trace ++
          [{ name := .txByte, a := rd s.mem (.frame s.curFrame) s.curOffset, b := s.curOffset
             t := s.now }] }) ∧
    (s.curRemaining = 1#8 →
      exec .advance s = .next { s with
        curRemaining := 0#8
        sendActive := false, curFrame := .gps, curOffset := 0#8, cksum := 0#8
        portMode := .rx
        provider := { providerSetMode s.cfg.providerDrainsTx s.portHandle .rx
          { s.provider with tx := s.provider.tx ++ [s.cksum], txSinceRx := true } with rxFifo := [] }
        tLastTx := s.now
        trace := s.trace ++
          [{ name := .txCksum, a := s.cksum, b := 0x00#8, t := s.now },
           { name := .mode, a := 0x00#8, b := 0x00#8, t := s.now },
           { name := .discard, a := BitVec.ofNat 8 s.provider.rxFifo.length, b := 0x01#8, t := s.now },
           { name := .sendDone, a := kindCode s.curFrame, b := 0x00#8, t := s.now }] })

/-- The model's own reading of a sub-operation offered outside its "only when" (log 8): DETECT during a
send and ADVANCE without one do nothing; and the model's one stop (log 9): ADVANCE with a cursor that R41
and R61 exclude stops by name. -/
def Obligations.SubOperationsOutsideTheirCondition : Prop :=
  ∀ s : State,
    (s.sendActive = true → exec .detect s = .next s) ∧
    (s.sendActive = false → exec .advance s = .next s) ∧
    (s.sendActive = true → (s.curRemaining = 0#8 ∨
        (s.curRemaining ≠ 1#8 ∧ frameLen s.cfg s.curFrame ≤ s.curOffset)) →
      exec .advance s = .fault .sendCursor)

/-- R155 to R157: SWITCH_TX, SWITCH_RX and DISCARD_RX complete in every state, their records carrying the
tick's `now` (log 6). -/
def Obligations.ModeSwitchesAndDiscard : Prop :=
  ∀ s : State,
    exec .switchTx s = .next { s with
      provider := providerSetMode s.cfg.providerDrainsTx s.portHandle .tx s.provider
      portMode := .tx
      trace := s.trace ++ [{ name := .mode, a := 0x01#8, b := 0x00#8, t := s.now }] } ∧
    exec .switchRx s = .next { s with
      provider := { providerSetMode s.cfg.providerDrainsTx s.portHandle .rx s.provider with rxFifo := [] }
      portMode := .rx
      trace := s.trace ++
        [{ name := .mode, a := 0x00#8, b := 0x00#8, t := s.now },
         { name := .discard, a := BitVec.ofNat 8 s.provider.rxFifo.length, b := 0x01#8, t := s.now }] } ∧
    ∀ r, exec (.discardRx r) s = .next { s with
      provider := { s.provider with rxFifo := [] }
      trace := s.trace ++
        [{ name := .discard, a := BitVec.ofNat 8 s.provider.rxFifo.length
           b := (match r with | .noise => 0x00#8 | .endOfSend => 0x01#8), t := s.now }] }

/-- Table Q rows `REQ_BIN_OTHER` and `REQ_OTHER` (R83): an ignored request does nothing (log 3). -/
def Obligations.IgnoredRequestRowsDoNothing : Prop :=
  ∀ (s : State) (requestId address : Byte),
    exec (.reqBinOther address) s = .next s ∧ exec (.reqOther requestId address) s = .next s

/-! ### Other agents -/

/-- R69: bytes on the wire join the receive FIFO in order while it has room, and nothing else changes. -/
def Obligations.WireFillsTheFifoToItsCapacity : Prop :=
  ∀ (s : State) (bytes : List Byte) (rest : List Input),
    configLegal s.cfg = true → s.inputs = .agent (.wire bytes) :: rest →
    s.provider.rxFifo.length ≤ s.cfg.rxFifoCapacity →
    step s = .next { s with
      inputs := rest
      provider := { s.provider with
        rxFifo := (s.provider.rxFifo ++ bytes).take s.cfg.rxFifoCapacity } }

/-- R158, R159 and R64: a command word other than ACQUIRE and RELEASE leaves the provider's ports and the
block's copies of mode, baud and handle as they are, but for the one mode switch of a TICK that begins or ends
a send, which changes the mode of the held port only. A command writes at most one byte, in transmit mode. The
acts of other agents are no command words (log 28). -/
def Obligations.PortIsChangedOnlyByTheArbiter : Prop :=
  ∀ (s t : State) (opcode : Byte) (op : Word32) (rest : List Input),
    SessionInv s → s.inputs = .code (hostWord opcode op) :: rest → step s = .next t →
    (opcode ≠ 0x02#8 → opcode ≠ 0x03#8 →
      t.portBaud = s.portBaud ∧ t.portHandle = s.portHandle ∧
      ((t.provider.calls = s.provider.calls ∧ t.provider.ports = s.provider.ports ∧
          t.portMode = s.portMode) ∨
        (opcode = 0x04#8 ∧ ∃ m, t.provider.calls = s.provider.calls ++ [.setMode m] ∧
          t.provider.ports =
            s.provider.ports.map (fun q => if q.handle = s.portHandle then { q with mode := m } else q) ∧
          t.portMode = m ∧
          ((m = .tx ∧ s.sendActive = false ∧ t.sendActive = true) ∨
            (m = .rx ∧ s.sendActive = true ∧ t.sendActive = false))))) ∧
    (t.provider.tx = s.provider.tx ∨
      (opcode = 0x04#8 ∧ s.portMode = .tx ∧ ∃ b, t.provider.tx = s.provider.tx ++ [b]))

/-! ### Invariants -/

/-- Right after reset every invariant below holds. -/
def Obligations.ResetMeetsTheInvariants : Prop :=
  SessionInv State.reset ∧ ChecksumInv State.reset ∧ FrameInv State.reset

/-- R40, R41, R179 and R159: every step keeps the session invariant: the port is in TX mode exactly while
a send is active, the cursor counts, an armed window has its two bytes. -/
def Obligations.EveryStepKeepsTheSession : Prop :=
  ∀ s t : State, SessionInv s → step s = .next t → SessionInv t

/-- R38, R88, R124 to R126: every step keeps the frame buffers' headers, stop bytes and never-written
bytes, and their canonical form. -/
def Obligations.EveryStepKeepsTheFrames : Prop :=
  ∀ s t : State, FrameInv s → step s = .next t → FrameInv t

/-- R31, R41 and R196: every step keeps the checksum accumulator equal to the sum of the bytes this send
has written. -/
def Obligations.EveryStepKeepsTheChecksum : Prop :=
  ∀ s t : State, SessionInv s → ChecksumInv s → step s = .next t → ChecksumInv t

/-- From a state that meets the session invariant no step stops: every command, agent action and reset
has a next state. -/
def Obligations.NoStepStopsInASession : Prop :=
  ∀ s : State, SessionInv s → ∃ t, step s = .next t

/-- R222 (with RELEASE from `ARMING`, which R154 allows: log 20): outside a reset the phase changes only
as listed. -/
def Obligations.PhaseChangesOnlyAsListed : Prop :=
  ∀ s t : State, SessionInv s → step s = .next t → resetNext s = false →
    phaseMayChange (phase s) (phase t) = true

/-- R199: nothing but a reset, or the TICK that sends the checksum, ends a send. -/
def Obligations.OnlyTheChecksumOrResetEndsASend : Prop :=
  ∀ s t : State, SessionInv s → s.sendActive = true → step s = .next t → t.sendActive = false →
    resetNext s = true ∨
      (∃ now rest, s.inputs = .code (hostWord 0x04#8 now) :: rest ∧ s.curRemaining = 1#8 ∧
        s.cfg.interByteUs ≤ now - s.tLastTx ∧ t.provider.tx = s.provider.tx ++ [s.cksum])

/-- R196, R197 under `GATE` and `DOUBLE`: as many TICKs as bytes remain, each `INTER_BYTE_US` after the
one before, complete the send: the remaining stored bytes as they were, then the checksum of all the bytes,
then the port back in receive mode with an empty FIFO. -/
def Obligations.SpacedTicksCompleteTheSend : Prop :=
  ∀ (s : State) (times : List Word32) (rest : List Input),
    SessionInv s → s.fault = 0#8 → s.sendActive = true → s.cfg.refreshPolicy ≠ .literal →
    times.length = s.curRemaining.toNat → spacedTicks s.cfg.interByteUs s.tLastTx times = true →
    s.inputs = tickInputs times ++ rest →
    ∃ t, core.run times.length s = .next t ∧ t.inputs = rest ∧ t.sendActive = false ∧
      t.portMode = .rx ∧ t.provider.rxFifo = [] ∧
      t.provider.tx = s.provider.tx ++
        frameBytes s.mem s.curFrame s.curOffset.toNat (s.curRemaining.toNat - 1) ++
        [s.cksum + sumBytes (frameBytes s.mem s.curFrame s.curOffset.toNat (s.curRemaining.toNat - 1))]

/-- R198, with INIT's write of R210 and Table S, which R198's words leave out (log 30): a command word leaves
`T_LAST_TX` as it is, but that INIT clears it and a TICK that begins a send or writes a byte sets it to its
`now`; such a TICK always does. -/
def Obligations.SendTimeIsWrittenOnlyBySendsAndInit : Prop :=
  ∀ (s t : State) (opcode : Byte) (op : Word32) (rest : List Input),
    s.inputs = .code (hostWord opcode op) :: rest → step s = .next t →
    (t.tLastTx = s.tLastTx ∨ (opcode = 0x01#8 ∧ t.initDone = true ∧ t.tLastTx = 0#32) ∨
      (opcode = 0x04#8 ∧ t.tLastTx = op ∧
        ((s.sendActive = false ∧ t.sendActive = true) ∨ ∃ b, t.provider.tx = s.provider.tx ++ [b]))) ∧
    (opcode = 0x04#8 → (s.sendActive ≠ t.sendActive ∨ t.provider.tx ≠ s.provider.tx) → t.tLastTx = op)

end SpecStatements
end

