-- ==== Sys2Proof/Laws/Memory.lean ====
section
/-! SUPPORT. The frame buffers: a read after a write, every write leaves the other bytes alone, and every
memory operation keeps the canonical form. -/

namespace Sys2Proof.Machine

/-! ### Cells -/

theorem readCell_eraseCell (m : Mem) (a x : Nat) :
    readCell (eraseCell a m) x = if x = a then unlistedByte else readCell m x := by
  induction m with
  | nil => simp [eraseCell, readCell]
  | cons c rest ih =>
    unfold eraseCell at ih ⊢
    by_cases hc : c.1 = a <;> simp only [List.filter_cons, hc, bne_self_eq_false, bne_iff_ne, ne_eq,
      not_false_eq_true, Bool.false_eq_true, if_true, if_false, readCell, ih]
    all_goals split_ifs <;> first | rfl | omega

theorem not_listed_eraseCell (m : Mem) (a : Nat) : ∀ c ∈ eraseCell a m, c.1 ≠ a := by
  intro c hc
  simpa using (List.mem_filter.mp hc).2

theorem readCell_insertCell (m : Mem) (a : Nat) (v : Byte) (h : ∀ c ∈ m, c.1 ≠ a) (x : Nat) :
    readCell (insertCell (a, v) m) x = if x = a then v else readCell m x := by
  induction m with
  | nil => simp [insertCell, readCell, eq_comm]
  | cons c rest ih =>
    have hc : c.1 ≠ a := h c (by simp)
    have ih' := ih (fun d hd => h d (by simp [hd]))
    by_cases hlt : a < c.1 <;> simp only [insertCell, hlt, if_true, if_false, readCell, ih']
    all_goals split_ifs <;> first | rfl | omega

/-- A read after a write: the value at the address written, the old byte everywhere else. -/
theorem readCell_writeCell (m : Mem) (a : Nat) (v : Byte) (x : Nat) :
    readCell (writeCell m a v) x = if x = a then v else readCell m x := by
  unfold writeCell
  split
  · rename_i hv
    rw [readCell_eraseCell, hv]
  · rw [readCell_insertCell _ _ _ (not_listed_eraseCell m a), readCell_eraseCell]
    split_ifs <;> rfl

/-! ### The canonical form -/

theorem memWf_cons (c : Host.Cell) (m : Mem) :
    memWf (c :: m) = true ↔ c.2 ≠ unlistedByte ∧ (∀ d ∈ m, c.1 < d.1) ∧ memWf m = true := by
  simp [memWf, and_assoc]

theorem memWf_eraseCell (m : Mem) (a : Nat) (h : memWf m = true) : memWf (eraseCell a m) = true := by
  induction m with
  | nil => rfl
  | cons c rest ih =>
    obtain ⟨hv, hlt, hr⟩ := (memWf_cons c rest).mp h
    have ih' := ih hr
    by_cases hc : c.1 = a
    · simpa [eraseCell, hc] using ih'
    · have : eraseCell a (c :: rest) = c :: eraseCell a rest := by simp [eraseCell, hc]
      rw [this, memWf_cons]
      exact ⟨hv, fun d hd => hlt d (List.mem_of_mem_filter hd), ih'⟩

theorem mem_insertCell (c d : Host.Cell) (m : Mem) : d ∈ insertCell c m ↔ d = c ∨ d ∈ m := by
  induction m with
  | nil => simp [insertCell]
  | cons e rest ih =>
    by_cases hlt : c.1 < e.1 <;> simp [insertCell, hlt, ih]
    tauto

theorem memWf_insertCell (m : Mem) (c : Host.Cell) (hm : ∀ d ∈ m, d.1 ≠ c.1) (hc : c.2 ≠ unlistedByte)
    (h : memWf m = true) : memWf (insertCell c m) = true := by
  induction m with
  | nil => simp [insertCell, memWf, hc]
  | cons e rest ih =>
    obtain ⟨he, hlt, hr⟩ := (memWf_cons e rest).mp h
    have hne : e.1 ≠ c.1 := hm e (by simp)
    by_cases hce : c.1 < e.1
    · simp only [insertCell, hce, if_true]
      rw [memWf_cons]
      refine ⟨hc, fun d hd => ?_, h⟩
      rcases List.mem_cons.mp hd with rfl | hd
      · exact hce
      · exact hce.trans (hlt d hd)
    · simp only [insertCell, hce, if_false]
      rw [memWf_cons]
      refine ⟨he, fun d hd => ?_, ih (fun d hd => hm d (by simp [hd])) hr⟩
      rcases (mem_insertCell c d rest).mp hd with rfl | hd
      · omega
      · exact hlt d hd

/-- A write keeps the canonical form. -/
theorem memWf_writeCell (m : Mem) (a : Nat) (v : Byte) (h : memWf m = true) :
    memWf (writeCell m a v) = true := by
  unfold writeCell
  split
  · exact memWf_eraseCell m a h
  · rename_i hv
    exact memWf_insertCell _ _ (not_listed_eraseCell m a) hv (memWf_eraseCell m a h)

/-- In canonical form a list is empty exactly where every address reads as the unlisted byte. -/
theorem memWf_nil_of_reads (m : Mem) (h : memWf m = true) (hr : ∀ a, readCell m a = unlistedByte) :
    m = [] := by
  cases m with
  | nil => rfl
  | cons c rest =>
    have := hr c.1
    simp only [readCell, if_true] at this
    exact absurd this ((memWf_cons c rest).mp h).1

theorem readCell_of_lt (m : Mem) (a : Nat) (h : ∀ d ∈ m, a < d.1) : readCell m a = unlistedByte := by
  induction m with
  | nil => rfl
  | cons c rest ih =>
    have := h c (by simp)
    rw [readCell, if_neg (by omega), ih (fun d hd => h d (by simp [hd]))]

/-- Equal memories are equal data: two canonical lists that read alike are the same list. -/
theorem memWf_ext (m n : Mem) (hm : memWf m = true) (hn : memWf n = true)
    (h : ∀ a, readCell m a = readCell n a) : m = n := by
  induction m generalizing n with
  | nil => exact (memWf_nil_of_reads n hn (fun a => (h a).symm)).symm
  | cons c rest ih =>
    obtain ⟨hcv, hcl, hcr⟩ := (memWf_cons c rest).mp hm
    cases n with
    | nil => exact absurd (h c.1) (by simpa [readCell] using hcv)
    | cons d rest' =>
      obtain ⟨hdv, hdl, hdr⟩ := (memWf_cons d rest').mp hn
      have hcd : c.1 = d.1 := by
        rcases Nat.lt_trichotomy c.1 d.1 with hlt | heq | hgt
        · refine absurd (h c.1) ?_
          rw [readCell, if_pos rfl, readCell, if_neg (by omega),
            readCell_of_lt rest' c.1 (fun e he => by have := hdl e he; omega)]
          exact hcv
        · exact heq
        · refine absurd (h d.1).symm ?_
          rw [readCell, if_pos rfl, readCell, if_neg (by omega),
            readCell_of_lt rest d.1 (fun e he => by have := hcl e he; omega)]
          exact hdv
      have hv : c.2 = d.2 := by
        have := h c.1
        rwa [readCell, if_pos rfl, readCell, if_pos hcd.symm] at this
      have hrest : rest = rest' := by
        refine ih rest' hcr hdr (fun a => ?_)
        by_cases ha : a = c.1
        · rw [ha, readCell_of_lt rest c.1 hcl, readCell_of_lt rest' c.1 (fun e he => hcd ▸ hdl e he)]
        · have := h a
          rwa [readCell, if_neg (by omega), readCell, if_neg (by omega)] at this
      rw [hrest, Prod.ext hcd hv]

/-! ### Buffer bytes -/

/-- No two buffer bytes share an address. -/
theorem address_inj {b c : Buf} {i j : Byte} (h : bufBase b + i.toNat = bufBase c + j.toNat) :
    b = c ∧ i = j := by
  have hi := i.isLt
  have hj := j.isLt
  rcases b with ⟨⟨⟩⟩ | ⟨⟨⟩⟩ <;> rcases c with ⟨⟨⟩⟩ | ⟨⟨⟩⟩ <;> simp only [bufBase] at h <;>
    first
      | exact ⟨rfl, BitVec.eq_of_toNat_eq (by omega)⟩
      | omega

/-- A buffer write: the byte written, and every other byte of every buffer as it was. -/
@[simp] theorem rd_wr (m : Mem) (b c : Buf) (i j v : Byte) :
    rd (wr b i v m) c j = if c = b ∧ j = i then v else rd m c j := by
  unfold rd wr
  rw [readCell_writeCell]
  by_cases h : bufBase c + j.toNat = bufBase b + i.toNat
  · rw [if_pos h, if_pos (address_inj h)]
  · rw [if_neg h, if_neg]
    rintro ⟨rfl, rfl⟩
    exact h rfl

theorem memWf_wr (m : Mem) (b : Buf) (i v : Byte) (h : memWf m = true) : memWf (wr b i v m) = true :=
  memWf_writeCell m _ v h

theorem memWf_store16 (m : Mem) (b : Buf) (i : Byte) (v : Half) (h : memWf m = true) :
    memWf (store16 b i v m) = true :=
  memWf_wr _ _ _ _ (memWf_wr _ _ _ _ h)

/-- A 16-bit store: low byte, then high byte (R70). -/
theorem rd_store16 (m : Mem) (b c : Buf) (i j : Byte) (v : Half) :
    rd (store16 b i v m) c j =
      if c = b ∧ j = i + 1#8 then hi8 v else if c = b ∧ j = i then lo8 v else rd m c j := by
  simp [store16]

theorem eq_ofNat_iff (j : Byte) (n : Nat) (hn : n < 256) : j = BitVec.ofNat 8 n ↔ j.toNat = n := by
  constructor
  · rintro rfl
    simp; omega
  · rintro rfl
    simp

theorem memWf_zeroBuf (m : Mem) (b : Buf) (n : Nat) (h : memWf m = true) :
    memWf (zeroBuf b n m) = true := by
  induction n with
  | zero => exact h
  | succ n ih => exact memWf_wr _ _ _ _ ih

/-- Zeroing the first `n` bytes of a buffer. -/
theorem rd_zeroBuf (m : Mem) (b c : Buf) (n : Nat) (hn : n ≤ 256) (j : Byte) :
    rd (zeroBuf b n m) c j = if c = b ∧ j.toNat < n then 0x00#8 else rd m c j := by
  induction n with
  | zero => simp [zeroBuf]
  | succ n ih =>
    rw [zeroBuf, rd_wr, ih (by omega)]
    simp only [eq_ofNat_iff j n (by omega)]
    by_cases hc : c = b <;> simp only [hc, true_and, false_and, if_false]
    split_ifs <;> first | rfl | omega

theorem memWf_copyBuf (m : Mem) (dst src : Buf) (n : Nat) (h : memWf m = true) :
    memWf (copyBuf dst src n m) = true := by
  induction n with
  | zero => exact h
  | succ n ih => exact memWf_wr _ _ _ _ ih

/-- Copying the first `n` bytes of another buffer. -/
theorem rd_copyBuf (m : Mem) (dst src c : Buf) (hds : dst ≠ src) (n : Nat) (hn : n ≤ 256) (j : Byte) :
    rd (copyBuf dst src n m) c j = if c = dst ∧ j.toNat < n then rd m src j else rd m c j := by
  induction n generalizing c j with
  | zero => simp [copyBuf]
  | succ n ih =>
    have hsrc : rd (copyBuf dst src n m) src (BitVec.ofNat 8 n) = rd m src (BitVec.ofNat 8 n) := by
      rw [ih src (by omega), if_neg (fun h => hds h.1.symm)]
    rw [copyBuf, rd_wr, ih c (by omega) j, hsrc]
    simp only [eq_ofNat_iff j n (by omega)]
    by_cases hc : c = dst <;> simp only [hc, true_and, false_and, if_false]
    by_cases hj : j.toNat = n
    · have : j = BitVec.ofNat 8 n := (eq_ofNat_iff j n (by omega)).mpr hj
      rw [← this]
      split_ifs <;> first | rfl | omega
    · split_ifs <;> first | rfl | omega

/-! ### The composed operations -/

theorem memWf_storeCoord (m : Mem) (b : Buf) (i : Byte) (c : CoordFields) (h : memWf m = true) :
    memWf (storeCoord b i c m) = true :=
  memWf_store16 _ _ _ _ (memWf_store16 _ _ _ _ (memWf_wr _ _ _ _ h))

theorem memWf_composeGps (cfg : Config) (b : Buf) (v : Snapshot) (m : Mem) (h : memWf m = true) :
    memWf (composeGps cfg b v m) = true := by
  have h1 : memWf (wr b 27#8 (fixChar cfg v) (wr b 26#8 v.numSat m)) = true :=
    memWf_wr _ _ _ _ (memWf_wr _ _ _ _ h)
  unfold composeGps
  dsimp only
  split
  · exact h1
  · exact memWf_wr _ _ _ _ (memWf_store16 _ _ _ _ (memWf_store16 _ _ _ _ (memWf_store16 _ _ _ _
      (memWf_storeCoord _ _ _ _ (memWf_storeCoord _ _ _ _ h1)))))

theorem memWf_composeEam (cfg : Config) (b : Buf) (v : Snapshot) (m : Mem) (h : memWf m = true) :
    memWf (composeEam cfg b v m) = true :=
  memWf_store16 _ _ _ _ (memWf_store16 _ _ _ _
    (memWf_wr _ _ _ _ (memWf_wr _ _ _ _ (memWf_wr _ _ _ _ h))))

theorem memWf_compose (cfg : Config) (k : FrameKind) (b : Buf) (v : Snapshot) (m : Mem)
    (h : memWf m = true) : memWf (compose cfg k b v m) = true := by
  cases k
  · exact memWf_composeGps cfg b v m h
  · exact memWf_composeEam cfg b v m h

theorem memWf_swapIn (cfg : Config) (k : FrameKind) (m : Mem) (h : memWf m = true) :
    memWf (swapIn cfg k m) = true := by
  unfold swapIn
  split
  · exact h
  · exact h
  · exact memWf_copyBuf _ _ _ _ h

theorem memWf_initBuf (cfg : Config) (b : Buf) (m : Mem) (h : memWf m = true) :
    memWf (initBuf cfg b m) = true :=
  memWf_wr _ _ _ _ (memWf_wr _ _ _ _ (memWf_wr _ _ _ _ (memWf_wr _ _ _ _ (memWf_zeroBuf _ _ _ h))))

theorem memWf_initBufs (cfg : Config) (m : Mem) (h : memWf m = true) : memWf (initBufs cfg m) = true :=
  memWf_initBuf _ _ _ (memWf_initBuf _ _ _ (memWf_initBuf _ _ _ (memWf_initBuf _ _ _ h)))

/-- The canonical form holds right after reset. -/
theorem memWf_reset : memWf State.reset.mem = true := rfl

/-- Which byte a buffer holds after ComposeGPS (R111): the listed fields, every other byte as it was. -/
theorem rd_composeGps (cfg : Config) (b c : Buf) (v : Snapshot) (m : Mem) (j : Byte) :
    rd (composeGps cfg b v m) c j =
      if c ≠ b then rd m c j
      else if j = 26#8 then v.numSat
      else if j = 27#8 then fixChar cfg v
      else if !v.fix && cfg.gpsNofixHold then rd m b j
      else if j = 7#8 then lo8 (speedCode v.speed)
      else if j = 8#8 then hi8 (speedCode v.speed)
      else if j = 9#8 then (coord cfg v.lat).h
      else if j = 10#8 then lo8 (coord cfg v.lat).dm
      else if j = 11#8 then hi8 (coord cfg v.lat).dm
      else if j = 12#8 then lo8 (coord cfg v.lat).sc
      else if j = 13#8 then hi8 (coord cfg v.lat).sc
      else if j = 14#8 then (coord cfg v.lon).h
      else if j = 15#8 then lo8 (coord cfg v.lon).dm
      else if j = 16#8 then hi8 (coord cfg v.lon).dm
      else if j = 17#8 then lo8 (coord cfg v.lon).sc
      else if j = 18#8 then hi8 (coord cfg v.lon).sc
      else if j = 19#8 then lo8 v.distHome
      else if j = 20#8 then hi8 v.distHome
      else if j = 21#8 then lo8 (altCode cfg v.alt)
      else if j = 22#8 then hi8 (altCode cfg v.alt)
      else if j = 28#8 then lo8 v.dirHome
      else rd m b j := by
  by_cases hc : c = b
  · subst hc
    unfold composeGps
    by_cases hh : (!v.fix && cfg.gpsNofixHold) = true
    · simp only [hh, if_true, rd_wr, ne_eq, not_true_eq_false, if_false, true_and]
      by_cases h26 : j = 26#8
      · simp [h26]
      · by_cases h27 : j = 27#8 <;> simp [h26, h27]
    · simp only [hh, if_false, rd_wr, rd_store16, storeCoord, true_and, ne_eq, not_true_eq_false,
        Bool.false_eq_true, BitVec.reduceAdd]
      by_cases h : j ∈ ([26#8, 27#8, 7#8, 8#8, 9#8, 10#8, 11#8, 12#8, 13#8, 14#8, 15#8, 16#8, 17#8,
          18#8, 19#8, 20#8, 21#8, 22#8, 28#8] : List Byte)
      · simp only [List.mem_cons, List.not_mem_nil, or_false] at h
        rcases h with rfl | rfl | rfl | rfl | rfl | rfl | rfl | rfl | rfl | rfl | rfl | rfl | rfl | rfl | rfl |
          rfl | rfl | rfl | rfl <;> simp only [BitVec.reduceEq, if_true, if_false]
      · simp only [List.mem_cons, List.not_mem_nil, or_false, not_or] at h
        simp only [h, if_false]
  · unfold composeGps storeCoord store16
    simp only [ne_eq, hc, not_false_eq_true, if_true]
    split <;> simp [hc]

/-- Which byte a buffer holds after ComposeEAM (R122). -/
theorem rd_composeEam (cfg : Config) (b c : Buf) (v : Snapshot) (m : Mem) (j : Byte) :
    rd (composeEam cfg b v m) c j =
      if c ≠ b then rd m c j
      else if j = warnOff cfg ∨ j = 4#8 ∨ j = 5#8 then 0x00#8
      else if j = 20#8 ∨ j = 30#8 then lo8 v.vbat
      else if j = 21#8 ∨ j = 31#8 then hi8 v.vbat
      else rd m b j := by
  have hw : warnOff cfg = 2#8 ∨ warnOff cfg = 3#8 := by
    unfold warnOff
    cases cfg.headerOrder <;> simp
  by_cases hc : c = b
  · subst hc
    unfold composeEam
    simp only [rd_wr, rd_store16, true_and, ne_eq, not_true_eq_false, if_false, BitVec.reduceAdd]
    rcases hw with hw | hw <;> rw [hw] <;> split_ifs <;> simp_all
  · unfold composeEam store16
    simp [hc]

/-- Composition of one kind writes no byte of another buffer. -/
theorem rd_compose_other (cfg : Config) (k : FrameKind) (b c : Buf) (v : Snapshot) (m : Mem) (j : Byte)
    (h : c ≠ b) : rd (compose cfg k b v m) c j = rd m c j := by
  cases k
  · exact (rd_composeGps cfg b c v m j).trans (if_pos h)
  · exact (rd_composeEam cfg b c v m j).trans (if_pos h)

/-- Which byte a buffer holds after INIT of one buffer (R210). -/
theorem rd_initBuf (cfg : Config) (b c : Buf) (m : Mem) (j : Byte) :
    rd (initBuf cfg b m) c j =
      if c ≠ b then rd m c j
      else if j = frameLen cfg (bufKind b) - 1#8 then stopByte
      else if j = textOff cfg then textId cfg (bufKind b)
      else if j = 1#8 then classId cfg (bufKind b)
      else if j = 0#8 then startByte
      else if j.toNat < (frameLen cfg (bufKind b)).toNat then 0x00#8
      else rd m b j := by
  have hn : (frameLen cfg (bufKind b)).toNat ≤ 256 := (frameLen cfg (bufKind b)).isLt.le
  unfold initBuf
  simp only [rd_wr, rd_zeroBuf m b c _ hn]
  by_cases hc : c = b
  · simp [hc]
  · simp [hc]

/-- Which byte a buffer holds after BEGIN_SEND's copy (R192). -/
theorem rd_swapIn (cfg : Config) (k : FrameKind) (m : Mem) (c : Buf) (j : Byte) :
    rd (swapIn cfg k m) c j =
      if cfg.refreshPolicy = .double ∧ c = .frame k ∧ j.toNat < (frameLen cfg k).toNat then
        rd m (.next k) j
      else rd m c j := by
  unfold swapIn
  split <;> rename_i h
  · simp [h]
  · simp [h]
  · rw [rd_copyBuf m _ _ c (by simp) _ (frameLen cfg k).isLt.le]
    simp [h]

end Sys2Proof.Machine
end

