-- ==== Sys2Proof/Laws/State.lean ====
section
/-! SUPPORT. One lemma for each field after each basic update of State, true by definition, so that no later
proof unfolds a record update. -/

namespace Sys2Proof.Machine

/-! ### `emitAt` -/

@[simp] theorem emitAt_cfg (t : Word32) (n : EventName) (a b : Byte) (s : State) :
    (emitAt t n a b s).cfg = s.cfg := rfl
@[simp] theorem emitAt_initDone (t : Word32) (n : EventName) (a b : Byte) (s : State) :
    (emitAt t n a b s).initDone = s.initDone := rfl
@[simp] theorem emitAt_config (t : Word32) (n : EventName) (a b : Byte) (s : State) :
    (emitAt t n a b s).config = s.config := rfl
@[simp] theorem emitAt_portAcquired (t : Word32) (n : EventName) (a b : Byte) (s : State) :
    (emitAt t n a b s).portAcquired = s.portAcquired := rfl
@[simp] theorem emitAt_portHandle (t : Word32) (n : EventName) (a b : Byte) (s : State) :
    (emitAt t n a b s).portHandle = s.portHandle := rfl
@[simp] theorem emitAt_portShared (t : Word32) (n : EventName) (a b : Byte) (s : State) :
    (emitAt t n a b s).portShared = s.portShared := rfl
@[simp] theorem emitAt_portMode (t : Word32) (n : EventName) (a b : Byte) (s : State) :
    (emitAt t n a b s).portMode = s.portMode := rfl
@[simp] theorem emitAt_portBaud (t : Word32) (n : EventName) (a b : Byte) (s : State) :
    (emitAt t n a b s).portBaud = s.portBaud := rfl
@[simp] theorem emitAt_savedMode (t : Word32) (n : EventName) (a b : Byte) (s : State) :
    (emitAt t n a b s).savedMode = s.savedMode := rfl
@[simp] theorem emitAt_savedBaud (t : Word32) (n : EventName) (a b : Byte) (s : State) :
    (emitAt t n a b s).savedBaud = s.savedBaud := rfl
@[simp] theorem emitAt_sendActive (t : Word32) (n : EventName) (a b : Byte) (s : State) :
    (emitAt t n a b s).sendActive = s.sendActive := rfl
@[simp] theorem emitAt_curFrame (t : Word32) (n : EventName) (a b : Byte) (s : State) :
    (emitAt t n a b s).curFrame = s.curFrame := rfl
@[simp] theorem emitAt_curOffset (t : Word32) (n : EventName) (a b : Byte) (s : State) :
    (emitAt t n a b s).curOffset = s.curOffset := rfl
@[simp] theorem emitAt_curRemaining (t : Word32) (n : EventName) (a b : Byte) (s : State) :
    (emitAt t n a b s).curRemaining = s.curRemaining := rfl
@[simp] theorem emitAt_cksum (t : Word32) (n : EventName) (a b : Byte) (s : State) :
    (emitAt t n a b s).cksum = s.cksum := rfl
@[simp] theorem emitAt_tLastTx (t : Word32) (n : EventName) (a b : Byte) (s : State) :
    (emitAt t n a b s).tLastTx = s.tLastTx := rfl
@[simp] theorem emitAt_winArmed (t : Word32) (n : EventName) (a b : Byte) (s : State) :
    (emitAt t n a b s).winArmed = s.winArmed := rfl
@[simp] theorem emitAt_winT0 (t : Word32) (n : EventName) (a b : Byte) (s : State) :
    (emitAt t n a b s).winT0 = s.winT0 := rfl
@[simp] theorem emitAt_tLastRefresh (t : Word32) (n : EventName) (a b : Byte) (s : State) :
    (emitAt t n a b s).tLastRefresh = s.tLastRefresh := rfl
@[simp] theorem emitAt_fault (t : Word32) (n : EventName) (a b : Byte) (s : State) :
    (emitAt t n a b s).fault = s.fault := rfl
@[simp] theorem emitAt_mem (t : Word32) (n : EventName) (a b : Byte) (s : State) :
    (emitAt t n a b s).mem = s.mem := rfl
@[simp] theorem emitAt_trace (t : Word32) (n : EventName) (a b : Byte) (s : State) :
    (emitAt t n a b s).trace = s.trace ++ [{ name := n, a := a, b := b, t := t }] := rfl
@[simp] theorem emitAt_provider (t : Word32) (n : EventName) (a b : Byte) (s : State) :
    (emitAt t n a b s).provider = s.provider := rfl
@[simp] theorem emitAt_snapshot (t : Word32) (n : EventName) (a b : Byte) (s : State) :
    (emitAt t n a b s).snapshot = s.snapshot := rfl
@[simp] theorem emitAt_now (t : Word32) (n : EventName) (a b : Byte) (s : State) :
    (emitAt t n a b s).now = s.now := rfl
@[simp] theorem emitAt_detected (t : Word32) (n : EventName) (a b : Byte) (s : State) :
    (emitAt t n a b s).detected = s.detected := rfl
@[simp] theorem emitAt_results (t : Word32) (n : EventName) (a b : Byte) (s : State) :
    (emitAt t n a b s).results = s.results := rfl
@[simp] theorem emitAt_inputs (t : Word32) (n : EventName) (a b : Byte) (s : State) :
    (emitAt t n a b s).inputs = s.inputs := rfl

/-! ### `emit` -/

@[simp] theorem emit_cfg (n : EventName) (a b : Byte) (s : State) : (emit n a b s).cfg = s.cfg := rfl
@[simp] theorem emit_initDone (n : EventName) (a b : Byte) (s : State) :
    (emit n a b s).initDone = s.initDone := rfl
@[simp] theorem emit_config (n : EventName) (a b : Byte) (s : State) :
    (emit n a b s).config = s.config := rfl
@[simp] theorem emit_portAcquired (n : EventName) (a b : Byte) (s : State) :
    (emit n a b s).portAcquired = s.portAcquired := rfl
@[simp] theorem emit_portHandle (n : EventName) (a b : Byte) (s : State) :
    (emit n a b s).portHandle = s.portHandle := rfl
@[simp] theorem emit_portShared (n : EventName) (a b : Byte) (s : State) :
    (emit n a b s).portShared = s.portShared := rfl
@[simp] theorem emit_portMode (n : EventName) (a b : Byte) (s : State) :
    (emit n a b s).portMode = s.portMode := rfl
@[simp] theorem emit_portBaud (n : EventName) (a b : Byte) (s : State) :
    (emit n a b s).portBaud = s.portBaud := rfl
@[simp] theorem emit_savedMode (n : EventName) (a b : Byte) (s : State) :
    (emit n a b s).savedMode = s.savedMode := rfl
@[simp] theorem emit_savedBaud (n : EventName) (a b : Byte) (s : State) :
    (emit n a b s).savedBaud = s.savedBaud := rfl
@[simp] theorem emit_sendActive (n : EventName) (a b : Byte) (s : State) :
    (emit n a b s).sendActive = s.sendActive := rfl
@[simp] theorem emit_curFrame (n : EventName) (a b : Byte) (s : State) :
    (emit n a b s).curFrame = s.curFrame := rfl
@[simp] theorem emit_curOffset (n : EventName) (a b : Byte) (s : State) :
    (emit n a b s).curOffset = s.curOffset := rfl
@[simp] theorem emit_curRemaining (n : EventName) (a b : Byte) (s : State) :
    (emit n a b s).curRemaining = s.curRemaining := rfl
@[simp] theorem emit_cksum (n : EventName) (a b : Byte) (s : State) : (emit n a b s).cksum = s.cksum := rfl
@[simp] theorem emit_tLastTx (n : EventName) (a b : Byte) (s : State) :
    (emit n a b s).tLastTx = s.tLastTx := rfl
@[simp] theorem emit_winArmed (n : EventName) (a b : Byte) (s : State) :
    (emit n a b s).winArmed = s.winArmed := rfl
@[simp] theorem emit_winT0 (n : EventName) (a b : Byte) (s : State) : (emit n a b s).winT0 = s.winT0 := rfl
@[simp] theorem emit_tLastRefresh (n : EventName) (a b : Byte) (s : State) :
    (emit n a b s).tLastRefresh = s.tLastRefresh := rfl
@[simp] theorem emit_fault (n : EventName) (a b : Byte) (s : State) : (emit n a b s).fault = s.fault := rfl
@[simp] theorem emit_mem (n : EventName) (a b : Byte) (s : State) : (emit n a b s).mem = s.mem := rfl
@[simp] theorem emit_trace (n : EventName) (a b : Byte) (s : State) :
    (emit n a b s).trace = s.trace ++ [{ name := n, a := a, b := b, t := s.now }] := rfl
@[simp] theorem emit_provider (n : EventName) (a b : Byte) (s : State) :
    (emit n a b s).provider = s.provider := rfl
@[simp] theorem emit_snapshot (n : EventName) (a b : Byte) (s : State) :
    (emit n a b s).snapshot = s.snapshot := rfl
@[simp] theorem emit_now (n : EventName) (a b : Byte) (s : State) : (emit n a b s).now = s.now := rfl
@[simp] theorem emit_detected (n : EventName) (a b : Byte) (s : State) :
    (emit n a b s).detected = s.detected := rfl
@[simp] theorem emit_results (n : EventName) (a b : Byte) (s : State) :
    (emit n a b s).results = s.results := rfl
@[simp] theorem emit_inputs (n : EventName) (a b : Byte) (s : State) :
    (emit n a b s).inputs = s.inputs := rfl

/-! ### `answer` -/

@[simp] theorem answer_cfg (st : Status) (d : Word32) (s : State) : (answer st d s).cfg = s.cfg := rfl
@[simp] theorem answer_initDone (st : Status) (d : Word32) (s : State) :
    (answer st d s).initDone = s.initDone := rfl
@[simp] theorem answer_config (st : Status) (d : Word32) (s : State) :
    (answer st d s).config = s.config := rfl
@[simp] theorem answer_portAcquired (st : Status) (d : Word32) (s : State) :
    (answer st d s).portAcquired = s.portAcquired := rfl
@[simp] theorem answer_portHandle (st : Status) (d : Word32) (s : State) :
    (answer st d s).portHandle = s.portHandle := rfl
@[simp] theorem answer_portShared (st : Status) (d : Word32) (s : State) :
    (answer st d s).portShared = s.portShared := rfl
@[simp] theorem answer_portMode (st : Status) (d : Word32) (s : State) :
    (answer st d s).portMode = s.portMode := rfl
@[simp] theorem answer_portBaud (st : Status) (d : Word32) (s : State) :
    (answer st d s).portBaud = s.portBaud := rfl
@[simp] theorem answer_savedMode (st : Status) (d : Word32) (s : State) :
    (answer st d s).savedMode = s.savedMode := rfl
@[simp] theorem answer_savedBaud (st : Status) (d : Word32) (s : State) :
    (answer st d s).savedBaud = s.savedBaud := rfl
@[simp] theorem answer_sendActive (st : Status) (d : Word32) (s : State) :
    (answer st d s).sendActive = s.sendActive := rfl
@[simp] theorem answer_curFrame (st : Status) (d : Word32) (s : State) :
    (answer st d s).curFrame = s.curFrame := rfl
@[simp] theorem answer_curOffset (st : Status) (d : Word32) (s : State) :
    (answer st d s).curOffset = s.curOffset := rfl
@[simp] theorem answer_curRemaining (st : Status) (d : Word32) (s : State) :
    (answer st d s).curRemaining = s.curRemaining := rfl
@[simp] theorem answer_cksum (st : Status) (d : Word32) (s : State) : (answer st d s).cksum = s.cksum := rfl
@[simp] theorem answer_tLastTx (st : Status) (d : Word32) (s : State) :
    (answer st d s).tLastTx = s.tLastTx := rfl
@[simp] theorem answer_winArmed (st : Status) (d : Word32) (s : State) :
    (answer st d s).winArmed = s.winArmed := rfl
@[simp] theorem answer_winT0 (st : Status) (d : Word32) (s : State) : (answer st d s).winT0 = s.winT0 := rfl
@[simp] theorem answer_tLastRefresh (st : Status) (d : Word32) (s : State) :
    (answer st d s).tLastRefresh = s.tLastRefresh := rfl
@[simp] theorem answer_fault (st : Status) (d : Word32) (s : State) : (answer st d s).fault = s.fault := rfl
@[simp] theorem answer_mem (st : Status) (d : Word32) (s : State) : (answer st d s).mem = s.mem := rfl
@[simp] theorem answer_trace (st : Status) (d : Word32) (s : State) : (answer st d s).trace = s.trace := rfl
@[simp] theorem answer_provider (st : Status) (d : Word32) (s : State) :
    (answer st d s).provider = s.provider := rfl
@[simp] theorem answer_snapshot (st : Status) (d : Word32) (s : State) :
    (answer st d s).snapshot = s.snapshot := rfl
@[simp] theorem answer_now (st : Status) (d : Word32) (s : State) : (answer st d s).now = s.now := rfl
@[simp] theorem answer_detected (st : Status) (d : Word32) (s : State) :
    (answer st d s).detected = s.detected := rfl
@[simp] theorem answer_results (st : Status) (d : Word32) (s : State) :
    (answer st d s).results = s.results ++ [resultWord st d] := rfl
@[simp] theorem answer_inputs (st : Status) (d : Word32) (s : State) :
    (answer st d s).inputs = s.inputs := rfl

/-! ### `raiseFault` -/

@[simp] theorem raiseFault_cfg (c : FaultCode) (op : Byte) (t : Word32) (s : State) :
    (raiseFault c op t s).cfg = s.cfg := rfl
@[simp] theorem raiseFault_initDone (c : FaultCode) (op : Byte) (t : Word32) (s : State) :
    (raiseFault c op t s).initDone = s.initDone := rfl
@[simp] theorem raiseFault_config (c : FaultCode) (op : Byte) (t : Word32) (s : State) :
    (raiseFault c op t s).config = s.config := rfl
@[simp] theorem raiseFault_portAcquired (c : FaultCode) (op : Byte) (t : Word32) (s : State) :
    (raiseFault c op t s).portAcquired = s.portAcquired := rfl
@[simp] theorem raiseFault_portHandle (c : FaultCode) (op : Byte) (t : Word32) (s : State) :
    (raiseFault c op t s).portHandle = s.portHandle := rfl
@[simp] theorem raiseFault_portShared (c : FaultCode) (op : Byte) (t : Word32) (s : State) :
    (raiseFault c op t s).portShared = s.portShared := rfl
@[simp] theorem raiseFault_portMode (c : FaultCode) (op : Byte) (t : Word32) (s : State) :
    (raiseFault c op t s).portMode = s.portMode := rfl
@[simp] theorem raiseFault_portBaud (c : FaultCode) (op : Byte) (t : Word32) (s : State) :
    (raiseFault c op t s).portBaud = s.portBaud := rfl
@[simp] theorem raiseFault_savedMode (c : FaultCode) (op : Byte) (t : Word32) (s : State) :
    (raiseFault c op t s).savedMode = s.savedMode := rfl
@[simp] theorem raiseFault_savedBaud (c : FaultCode) (op : Byte) (t : Word32) (s : State) :
    (raiseFault c op t s).savedBaud = s.savedBaud := rfl
@[simp] theorem raiseFault_sendActive (c : FaultCode) (op : Byte) (t : Word32) (s : State) :
    (raiseFault c op t s).sendActive = s.sendActive := rfl
@[simp] theorem raiseFault_curFrame (c : FaultCode) (op : Byte) (t : Word32) (s : State) :
    (raiseFault c op t s).curFrame = s.curFrame := rfl
@[simp] theorem raiseFault_curOffset (c : FaultCode) (op : Byte) (t : Word32) (s : State) :
    (raiseFault c op t s).curOffset = s.curOffset := rfl
@[simp] theorem raiseFault_curRemaining (c : FaultCode) (op : Byte) (t : Word32) (s : State) :
    (raiseFault c op t s).curRemaining = s.curRemaining := rfl
@[simp] theorem raiseFault_cksum (c : FaultCode) (op : Byte) (t : Word32) (s : State) :
    (raiseFault c op t s).cksum = s.cksum := rfl
@[simp] theorem raiseFault_tLastTx (c : FaultCode) (op : Byte) (t : Word32) (s : State) :
    (raiseFault c op t s).tLastTx = s.tLastTx := rfl
@[simp] theorem raiseFault_winArmed (c : FaultCode) (op : Byte) (t : Word32) (s : State) :
    (raiseFault c op t s).winArmed = s.winArmed := rfl
@[simp] theorem raiseFault_winT0 (c : FaultCode) (op : Byte) (t : Word32) (s : State) :
    (raiseFault c op t s).winT0 = s.winT0 := rfl
@[simp] theorem raiseFault_tLastRefresh (c : FaultCode) (op : Byte) (t : Word32) (s : State) :
    (raiseFault c op t s).tLastRefresh = s.tLastRefresh := rfl
@[simp] theorem raiseFault_fault (c : FaultCode) (op : Byte) (t : Word32) (s : State) :
    (raiseFault c op t s).fault = faultBits c := rfl
@[simp] theorem raiseFault_mem (c : FaultCode) (op : Byte) (t : Word32) (s : State) :
    (raiseFault c op t s).mem = s.mem := rfl
@[simp] theorem raiseFault_trace (c : FaultCode) (op : Byte) (t : Word32) (s : State) :
    (raiseFault c op t s).trace = s.trace ++ [{ name := .fault, a := faultBits c, b := op, t := t }] := rfl
@[simp] theorem raiseFault_provider (c : FaultCode) (op : Byte) (t : Word32) (s : State) :
    (raiseFault c op t s).provider = s.provider := rfl
@[simp] theorem raiseFault_snapshot (c : FaultCode) (op : Byte) (t : Word32) (s : State) :
    (raiseFault c op t s).snapshot = s.snapshot := rfl
@[simp] theorem raiseFault_now (c : FaultCode) (op : Byte) (t : Word32) (s : State) :
    (raiseFault c op t s).now = s.now := rfl
@[simp] theorem raiseFault_detected (c : FaultCode) (op : Byte) (t : Word32) (s : State) :
    (raiseFault c op t s).detected = s.detected := rfl
@[simp] theorem raiseFault_results (c : FaultCode) (op : Byte) (t : Word32) (s : State) :
    (raiseFault c op t s).results = s.results ++ [resultWord .faultRaised ((faultBits c).setWidth 32)] := rfl
@[simp] theorem raiseFault_inputs (c : FaultCode) (op : Byte) (t : Word32) (s : State) :
    (raiseFault c op t s).inputs = s.inputs := rfl

/-! ### `rxRead` -/

@[simp] theorem rxRead_cfg (s : State) : (rxRead s).cfg = s.cfg := rfl
@[simp] theorem rxRead_initDone (s : State) : (rxRead s).initDone = s.initDone := rfl
@[simp] theorem rxRead_config (s : State) : (rxRead s).config = s.config := rfl
@[simp] theorem rxRead_portAcquired (s : State) : (rxRead s).portAcquired = s.portAcquired := rfl
@[simp] theorem rxRead_portHandle (s : State) : (rxRead s).portHandle = s.portHandle := rfl
@[simp] theorem rxRead_portShared (s : State) : (rxRead s).portShared = s.portShared := rfl
@[simp] theorem rxRead_portMode (s : State) : (rxRead s).portMode = s.portMode := rfl
@[simp] theorem rxRead_portBaud (s : State) : (rxRead s).portBaud = s.portBaud := rfl
@[simp] theorem rxRead_savedMode (s : State) : (rxRead s).savedMode = s.savedMode := rfl
@[simp] theorem rxRead_savedBaud (s : State) : (rxRead s).savedBaud = s.savedBaud := rfl
@[simp] theorem rxRead_sendActive (s : State) : (rxRead s).sendActive = s.sendActive := rfl
@[simp] theorem rxRead_curFrame (s : State) : (rxRead s).curFrame = s.curFrame := rfl
@[simp] theorem rxRead_curOffset (s : State) : (rxRead s).curOffset = s.curOffset := rfl
@[simp] theorem rxRead_curRemaining (s : State) : (rxRead s).curRemaining = s.curRemaining := rfl
@[simp] theorem rxRead_cksum (s : State) : (rxRead s).cksum = s.cksum := rfl
@[simp] theorem rxRead_tLastTx (s : State) : (rxRead s).tLastTx = s.tLastTx := rfl
@[simp] theorem rxRead_winArmed (s : State) : (rxRead s).winArmed = s.winArmed := rfl
@[simp] theorem rxRead_winT0 (s : State) : (rxRead s).winT0 = s.winT0 := rfl
@[simp] theorem rxRead_tLastRefresh (s : State) : (rxRead s).tLastRefresh = s.tLastRefresh := rfl
@[simp] theorem rxRead_fault (s : State) : (rxRead s).fault = s.fault := rfl
@[simp] theorem rxRead_mem (s : State) : (rxRead s).mem = s.mem := rfl
@[simp] theorem rxRead_trace (s : State) : (rxRead s).trace = s.trace := rfl
@[simp] theorem rxRead_provider (s : State) :
    (rxRead s).provider = { s.provider with rxFifo := s.provider.rxFifo.tail } := rfl
@[simp] theorem rxRead_snapshot (s : State) : (rxRead s).snapshot = s.snapshot := rfl
@[simp] theorem rxRead_now (s : State) : (rxRead s).now = s.now := rfl
@[simp] theorem rxRead_detected (s : State) : (rxRead s).detected = s.detected := rfl
@[simp] theorem rxRead_results (s : State) : (rxRead s).results = s.results := rfl
@[simp] theorem rxRead_inputs (s : State) : (rxRead s).inputs = s.inputs := rfl

/-! ### `txWrite` -/

@[simp] theorem txWrite_cfg (b : Byte) (s : State) : (txWrite b s).cfg = s.cfg := rfl
@[simp] theorem txWrite_initDone (b : Byte) (s : State) : (txWrite b s).initDone = s.initDone := rfl
@[simp] theorem txWrite_config (b : Byte) (s : State) : (txWrite b s).config = s.config := rfl
@[simp] theorem txWrite_portAcquired (b : Byte) (s : State) :
    (txWrite b s).portAcquired = s.portAcquired := rfl
@[simp] theorem txWrite_portHandle (b : Byte) (s : State) : (txWrite b s).portHandle = s.portHandle := rfl
@[simp] theorem txWrite_portShared (b : Byte) (s : State) : (txWrite b s).portShared = s.portShared := rfl
@[simp] theorem txWrite_portMode (b : Byte) (s : State) : (txWrite b s).portMode = s.portMode := rfl
@[simp] theorem txWrite_portBaud (b : Byte) (s : State) : (txWrite b s).portBaud = s.portBaud := rfl
@[simp] theorem txWrite_savedMode (b : Byte) (s : State) : (txWrite b s).savedMode = s.savedMode := rfl
@[simp] theorem txWrite_savedBaud (b : Byte) (s : State) : (txWrite b s).savedBaud = s.savedBaud := rfl
@[simp] theorem txWrite_sendActive (b : Byte) (s : State) : (txWrite b s).sendActive = s.sendActive := rfl
@[simp] theorem txWrite_curFrame (b : Byte) (s : State) : (txWrite b s).curFrame = s.curFrame := rfl
@[simp] theorem txWrite_curOffset (b : Byte) (s : State) : (txWrite b s).curOffset = s.curOffset := rfl
@[simp] theorem txWrite_curRemaining (b : Byte) (s : State) :
    (txWrite b s).curRemaining = s.curRemaining := rfl
@[simp] theorem txWrite_cksum (b : Byte) (s : State) : (txWrite b s).cksum = s.cksum := rfl
@[simp] theorem txWrite_tLastTx (b : Byte) (s : State) : (txWrite b s).tLastTx = s.tLastTx := rfl
@[simp] theorem txWrite_winArmed (b : Byte) (s : State) : (txWrite b s).winArmed = s.winArmed := rfl
@[simp] theorem txWrite_winT0 (b : Byte) (s : State) : (txWrite b s).winT0 = s.winT0 := rfl
@[simp] theorem txWrite_tLastRefresh (b : Byte) (s : State) :
    (txWrite b s).tLastRefresh = s.tLastRefresh := rfl
@[simp] theorem txWrite_fault (b : Byte) (s : State) : (txWrite b s).fault = s.fault := rfl
@[simp] theorem txWrite_mem (b : Byte) (s : State) : (txWrite b s).mem = s.mem := rfl
@[simp] theorem txWrite_trace (b : Byte) (s : State) : (txWrite b s).trace = s.trace := rfl
@[simp] theorem txWrite_provider (b : Byte) (s : State) :
    (txWrite b s).provider = { s.provider with tx := s.provider.tx ++ [b], txSinceRx := true } := rfl
@[simp] theorem txWrite_snapshot (b : Byte) (s : State) : (txWrite b s).snapshot = s.snapshot := rfl
@[simp] theorem txWrite_now (b : Byte) (s : State) : (txWrite b s).now = s.now := rfl
@[simp] theorem txWrite_detected (b : Byte) (s : State) : (txWrite b s).detected = s.detected := rfl
@[simp] theorem txWrite_results (b : Byte) (s : State) : (txWrite b s).results = s.results := rfl
@[simp] theorem txWrite_inputs (b : Byte) (s : State) : (txWrite b s).inputs = s.inputs := rfl

/-! ### `setMode` -/

@[simp] theorem setMode_cfg (t : Word32) (m : PortMode) (s : State) : (setMode t m s).cfg = s.cfg := rfl
@[simp] theorem setMode_initDone (t : Word32) (m : PortMode) (s : State) :
    (setMode t m s).initDone = s.initDone := rfl
@[simp] theorem setMode_config (t : Word32) (m : PortMode) (s : State) :
    (setMode t m s).config = s.config := rfl
@[simp] theorem setMode_portAcquired (t : Word32) (m : PortMode) (s : State) :
    (setMode t m s).portAcquired = s.portAcquired := rfl
@[simp] theorem setMode_portHandle (t : Word32) (m : PortMode) (s : State) :
    (setMode t m s).portHandle = s.portHandle := rfl
@[simp] theorem setMode_portShared (t : Word32) (m : PortMode) (s : State) :
    (setMode t m s).portShared = s.portShared := rfl
@[simp] theorem setMode_portMode (t : Word32) (m : PortMode) (s : State) :
    (setMode t m s).portMode = m := rfl
@[simp] theorem setMode_portBaud (t : Word32) (m : PortMode) (s : State) :
    (setMode t m s).portBaud = s.portBaud := rfl
@[simp] theorem setMode_savedMode (t : Word32) (m : PortMode) (s : State) :
    (setMode t m s).savedMode = s.savedMode := rfl
@[simp] theorem setMode_savedBaud (t : Word32) (m : PortMode) (s : State) :
    (setMode t m s).savedBaud = s.savedBaud := rfl
@[simp] theorem setMode_sendActive (t : Word32) (m : PortMode) (s : State) :
    (setMode t m s).sendActive = s.sendActive := rfl
@[simp] theorem setMode_curFrame (t : Word32) (m : PortMode) (s : State) :
    (setMode t m s).curFrame = s.curFrame := rfl
@[simp] theorem setMode_curOffset (t : Word32) (m : PortMode) (s : State) :
    (setMode t m s).curOffset = s.curOffset := rfl
@[simp] theorem setMode_curRemaining (t : Word32) (m : PortMode) (s : State) :
    (setMode t m s).curRemaining = s.curRemaining := rfl
@[simp] theorem setMode_cksum (t : Word32) (m : PortMode) (s : State) :
    (setMode t m s).cksum = s.cksum := rfl
@[simp] theorem setMode_tLastTx (t : Word32) (m : PortMode) (s : State) :
    (setMode t m s).tLastTx = s.tLastTx := rfl
@[simp] theorem setMode_winArmed (t : Word32) (m : PortMode) (s : State) :
    (setMode t m s).winArmed = s.winArmed := rfl
@[simp] theorem setMode_winT0 (t : Word32) (m : PortMode) (s : State) :
    (setMode t m s).winT0 = s.winT0 := rfl
@[simp] theorem setMode_tLastRefresh (t : Word32) (m : PortMode) (s : State) :
    (setMode t m s).tLastRefresh = s.tLastRefresh := rfl
@[simp] theorem setMode_fault (t : Word32) (m : PortMode) (s : State) :
    (setMode t m s).fault = s.fault := rfl
@[simp] theorem setMode_mem (t : Word32) (m : PortMode) (s : State) : (setMode t m s).mem = s.mem := rfl
@[simp] theorem setMode_trace (t : Word32) (m : PortMode) (s : State) :
    (setMode t m s).trace = s.trace ++ [{ name := .mode, a := bitByte (modeBit m), b := 0x00#8, t := t }] := rfl
@[simp] theorem setMode_provider (t : Word32) (m : PortMode) (s : State) :
    (setMode t m s).provider = providerSetMode s.cfg.providerDrainsTx s.portHandle m s.provider := rfl
@[simp] theorem setMode_snapshot (t : Word32) (m : PortMode) (s : State) :
    (setMode t m s).snapshot = s.snapshot := rfl
@[simp] theorem setMode_now (t : Word32) (m : PortMode) (s : State) : (setMode t m s).now = s.now := rfl
@[simp] theorem setMode_detected (t : Word32) (m : PortMode) (s : State) :
    (setMode t m s).detected = s.detected := rfl
@[simp] theorem setMode_results (t : Word32) (m : PortMode) (s : State) :
    (setMode t m s).results = s.results := rfl
@[simp] theorem setMode_inputs (t : Word32) (m : PortMode) (s : State) :
    (setMode t m s).inputs = s.inputs := rfl

/-! ### `setBaud` -/

@[simp] theorem setBaud_cfg (n : Word32) (s : State) : (setBaud n s).cfg = s.cfg := rfl
@[simp] theorem setBaud_initDone (n : Word32) (s : State) : (setBaud n s).initDone = s.initDone := rfl
@[simp] theorem setBaud_config (n : Word32) (s : State) : (setBaud n s).config = s.config := rfl
@[simp] theorem setBaud_portAcquired (n : Word32) (s : State) :
    (setBaud n s).portAcquired = s.portAcquired := rfl
@[simp] theorem setBaud_portHandle (n : Word32) (s : State) : (setBaud n s).portHandle = s.portHandle := rfl
@[simp] theorem setBaud_portShared (n : Word32) (s : State) : (setBaud n s).portShared = s.portShared := rfl
@[simp] theorem setBaud_portMode (n : Word32) (s : State) : (setBaud n s).portMode = s.portMode := rfl
@[simp] theorem setBaud_portBaud (n : Word32) (s : State) : (setBaud n s).portBaud = n := rfl
@[simp] theorem setBaud_savedMode (n : Word32) (s : State) : (setBaud n s).savedMode = s.savedMode := rfl
@[simp] theorem setBaud_savedBaud (n : Word32) (s : State) : (setBaud n s).savedBaud = s.savedBaud := rfl
@[simp] theorem setBaud_sendActive (n : Word32) (s : State) : (setBaud n s).sendActive = s.sendActive := rfl
@[simp] theorem setBaud_curFrame (n : Word32) (s : State) : (setBaud n s).curFrame = s.curFrame := rfl
@[simp] theorem setBaud_curOffset (n : Word32) (s : State) : (setBaud n s).curOffset = s.curOffset := rfl
@[simp] theorem setBaud_curRemaining (n : Word32) (s : State) :
    (setBaud n s).curRemaining = s.curRemaining := rfl
@[simp] theorem setBaud_cksum (n : Word32) (s : State) : (setBaud n s).cksum = s.cksum := rfl
@[simp] theorem setBaud_tLastTx (n : Word32) (s : State) : (setBaud n s).tLastTx = s.tLastTx := rfl
@[simp] theorem setBaud_winArmed (n : Word32) (s : State) : (setBaud n s).winArmed = s.winArmed := rfl
@[simp] theorem setBaud_winT0 (n : Word32) (s : State) : (setBaud n s).winT0 = s.winT0 := rfl
@[simp] theorem setBaud_tLastRefresh (n : Word32) (s : State) :
    (setBaud n s).tLastRefresh = s.tLastRefresh := rfl
@[simp] theorem setBaud_fault (n : Word32) (s : State) : (setBaud n s).fault = s.fault := rfl
@[simp] theorem setBaud_mem (n : Word32) (s : State) : (setBaud n s).mem = s.mem := rfl
@[simp] theorem setBaud_trace (n : Word32) (s : State) : (setBaud n s).trace = s.trace := rfl
@[simp] theorem setBaud_provider (n : Word32) (s : State) :
    (setBaud n s).provider = providerSetBaud s.portHandle n s.provider := rfl
@[simp] theorem setBaud_snapshot (n : Word32) (s : State) : (setBaud n s).snapshot = s.snapshot := rfl
@[simp] theorem setBaud_now (n : Word32) (s : State) : (setBaud n s).now = s.now := rfl
@[simp] theorem setBaud_detected (n : Word32) (s : State) : (setBaud n s).detected = s.detected := rfl
@[simp] theorem setBaud_results (n : Word32) (s : State) : (setBaud n s).results = s.results := rfl
@[simp] theorem setBaud_inputs (n : Word32) (s : State) : (setBaud n s).inputs = s.inputs := rfl

/-! ### `detectReturns` -/

@[simp] theorem detectReturns_cfg (r : Option FrameKind) (s : State) :
    (detectReturns r s).cfg = s.cfg := rfl
@[simp] theorem detectReturns_initDone (r : Option FrameKind) (s : State) :
    (detectReturns r s).initDone = s.initDone := rfl
@[simp] theorem detectReturns_config (r : Option FrameKind) (s : State) :
    (detectReturns r s).config = s.config := rfl
@[simp] theorem detectReturns_portAcquired (r : Option FrameKind) (s : State) :
    (detectReturns r s).portAcquired = s.portAcquired := rfl
@[simp] theorem detectReturns_portHandle (r : Option FrameKind) (s : State) :
    (detectReturns r s).portHandle = s.portHandle := rfl
@[simp] theorem detectReturns_portShared (r : Option FrameKind) (s : State) :
    (detectReturns r s).portShared = s.portShared := rfl
@[simp] theorem detectReturns_portMode (r : Option FrameKind) (s : State) :
    (detectReturns r s).portMode = s.portMode := rfl
@[simp] theorem detectReturns_portBaud (r : Option FrameKind) (s : State) :
    (detectReturns r s).portBaud = s.portBaud := rfl
@[simp] theorem detectReturns_savedMode (r : Option FrameKind) (s : State) :
    (detectReturns r s).savedMode = s.savedMode := rfl
@[simp] theorem detectReturns_savedBaud (r : Option FrameKind) (s : State) :
    (detectReturns r s).savedBaud = s.savedBaud := rfl
@[simp] theorem detectReturns_sendActive (r : Option FrameKind) (s : State) :
    (detectReturns r s).sendActive = s.sendActive := rfl
@[simp] theorem detectReturns_curFrame (r : Option FrameKind) (s : State) :
    (detectReturns r s).curFrame = s.curFrame := rfl
@[simp] theorem detectReturns_curOffset (r : Option FrameKind) (s : State) :
    (detectReturns r s).curOffset = s.curOffset := rfl
@[simp] theorem detectReturns_curRemaining (r : Option FrameKind) (s : State) :
    (detectReturns r s).curRemaining = s.curRemaining := rfl
@[simp] theorem detectReturns_cksum (r : Option FrameKind) (s : State) :
    (detectReturns r s).cksum = s.cksum := rfl
@[simp] theorem detectReturns_tLastTx (r : Option FrameKind) (s : State) :
    (detectReturns r s).tLastTx = s.tLastTx := rfl
@[simp] theorem detectReturns_winArmed (r : Option FrameKind) (s : State) :
    (detectReturns r s).winArmed = s.winArmed := rfl
@[simp] theorem detectReturns_winT0 (r : Option FrameKind) (s : State) :
    (detectReturns r s).winT0 = s.winT0 := rfl
@[simp] theorem detectReturns_tLastRefresh (r : Option FrameKind) (s : State) :
    (detectReturns r s).tLastRefresh = s.tLastRefresh := rfl
@[simp] theorem detectReturns_fault (r : Option FrameKind) (s : State) :
    (detectReturns r s).fault = s.fault := rfl
@[simp] theorem detectReturns_mem (r : Option FrameKind) (s : State) :
    (detectReturns r s).mem = s.mem := rfl
@[simp] theorem detectReturns_trace (r : Option FrameKind) (s : State) :
    (detectReturns r s).trace = s.trace := rfl
@[simp] theorem detectReturns_provider (r : Option FrameKind) (s : State) :
    (detectReturns r s).provider = s.provider := rfl
@[simp] theorem detectReturns_snapshot (r : Option FrameKind) (s : State) :
    (detectReturns r s).snapshot = s.snapshot := rfl
@[simp] theorem detectReturns_now (r : Option FrameKind) (s : State) :
    (detectReturns r s).now = s.now := rfl
@[simp] theorem detectReturns_detected (r : Option FrameKind) (s : State) :
    (detectReturns r s).detected = r := rfl
@[simp] theorem detectReturns_results (r : Option FrameKind) (s : State) :
    (detectReturns r s).results = s.results := rfl
@[simp] theorem detectReturns_inputs (r : Option FrameKind) (s : State) :
    (detectReturns r s).inputs = s.inputs := rfl

end Sys2Proof.Machine
end

