-- ==== Sys2Proof/Laws/Ops.lean ====
section
/-! SUPPORT. For each shared operation one lemma that says everything it does, as one record update; the
proofs about instructions cite these and unfold nothing. -/

namespace Sys2Proof.Machine

/-! ### The receive FIFO -/

theorem rxReadN_eq (n : Nat) (s : State) :
    rxReadN n s = { s with provider := { s.provider with rxFifo := s.provider.rxFifo.drop n } } := by
  induction n generalizing s with
  | zero => rfl
  | succ n ih =>
    rw [rxReadN, ih]
    simp [rxRead]

/-- DISCARD_RX (R157): the FIFO is emptied and the count traced. -/
theorem discardRx_eq (r : DiscardReason) (s : State) :
    discardRx r s = { s with
      provider := { s.provider with rxFifo := [] }
      trace := s.trace ++
        [{ name := .discard, a := BitVec.ofNat 8 s.provider.rxFifo.length, b := reasonByte r,
           t := s.now }] } := by
  simp [discardRx, rxReadN_eq, emit, emitAt, rxCount]

theorem receiveByte_length (n : Nat) (b : Byte) (fifo : List Byte) :
    fifo.length ≤ (receiveByte n b fifo).length ∧
      (fifo.length ≤ n → (receiveByte n b fifo).length ≤ n) := by
  unfold receiveByte
  split <;> simp
  omega

/-- Arriving bytes never remove one, and never overfill the FIFO (R69). -/
theorem receiveBytes_length (n : Nat) (bs fifo : List Byte) :
    fifo.length ≤ (receiveBytes n bs fifo).length ∧
      (fifo.length ≤ n → (receiveBytes n bs fifo).length ≤ n) := by
  induction bs generalizing fifo with
  | nil => simp [receiveBytes]
  | cons b rest ih =>
    have h1 := receiveByte_length n b fifo
    have h2 := ih (receiveByte n b fifo)
    simp only [receiveBytes]
    exact ⟨h1.1.trans h2.1, fun h => h2.2 (h1.2 h)⟩

/-! ### The provider -/

/-- `SetMode` leaves the FIFO and the transmitted bytes alone. -/
theorem providerSetMode_frame (d : Bool) (h : Word32) (m : PortMode) (p : Provider) :
    (providerSetMode d h m p).rxFifo = p.rxFifo ∧ (providerSetMode d h m p).tx = p.tx ∧
      (providerSetMode d h m p).openReply = p.openReply := ⟨rfl, rfl, rfl⟩

@[simp] theorem providerSetMode_rxFifo (d : Bool) (h : Word32) (m : PortMode) (p : Provider) :
    (providerSetMode d h m p).rxFifo = p.rxFifo := rfl
@[simp] theorem providerSetMode_tx (d : Bool) (h : Word32) (m : PortMode) (p : Provider) :
    (providerSetMode d h m p).tx = p.tx := rfl
@[simp] theorem providerSetMode_ports (d : Bool) (h : Word32) (m : PortMode) (p : Provider) :
    (providerSetMode d h m p).ports = p.ports.map (updatePort h (some m) none) := rfl
@[simp] theorem providerSetMode_calls (d : Bool) (h : Word32) (m : PortMode) (p : Provider) :
    (providerSetMode d h m p).calls = p.calls ++ [.setMode m] := rfl
@[simp] theorem providerSetBaud_rxFifo (h n : Word32) (p : Provider) :
    (providerSetBaud h n p).rxFifo = p.rxFifo := rfl
@[simp] theorem providerSetBaud_tx (h n : Word32) (p : Provider) :
    (providerSetBaud h n p).tx = p.tx := rfl
@[simp] theorem providerSetBaud_ports (h n : Word32) (p : Provider) :
    (providerSetBaud h n p).ports = p.ports.map (updatePort h none (some n)) := rfl
@[simp] theorem providerSetBaud_calls (h n : Word32) (p : Provider) :
    (providerSetBaud h n p).calls = p.calls ++ [.setBaud n] := rfl
@[simp] theorem providerBeginFunction_rxFifo (h tag : Word32) (p : Provider) :
    (providerBeginFunction h tag p).rxFifo = p.rxFifo := rfl
@[simp] theorem providerBeginFunction_tx (h tag : Word32) (p : Provider) :
    (providerBeginFunction h tag p).tx = p.tx := rfl
@[simp] theorem providerBeginFunction_calls (h tag : Word32) (p : Provider) :
    (providerBeginFunction h tag p).calls = p.calls ++ [.beginFunction h tag] := rfl
@[simp] theorem providerEndFunction_rxFifo (h tag : Word32) (p : Provider) :
    (providerEndFunction h tag p).rxFifo = p.rxFifo := rfl
@[simp] theorem providerEndFunction_tx (h tag : Word32) (p : Provider) :
    (providerEndFunction h tag p).tx = p.tx := rfl
@[simp] theorem providerEndFunction_calls (h tag : Word32) (p : Provider) :
    (providerEndFunction h tag p).calls = p.calls ++ [.endFunction h tag] := rfl
@[simp] theorem callPort_rxFifo (c : PortCall) (p : Provider) : (callPort c p).rxFifo = p.rxFifo := rfl
@[simp] theorem callPort_tx (c : PortCall) (p : Provider) : (callPort c p).tx = p.tx := rfl
@[simp] theorem callPort_ports (c : PortCall) (p : Provider) : (callPort c p).ports = p.ports := rfl
@[simp] theorem callPort_openReply (c : PortCall) (p : Provider) :
    (callPort c p).openReply = p.openReply := rfl
@[simp] theorem callPort_calls (c : PortCall) (p : Provider) : (callPort c p).calls = p.calls ++ [c] := rfl

/-- `OpenPort` changes the registry alone (R66). -/
theorem providerOpenPort_frame (tag baud : Word32) (m : PortMode) (c : Word32) (p : Provider) :
    (providerOpenPort tag baud m c p).rxFifo = p.rxFifo ∧ (providerOpenPort tag baud m c p).tx = p.tx ∧
      (providerOpenPort tag baud m c p).calls = p.calls ++ [.openPort tag baud m c] := by
  unfold providerOpenPort openedPort
  split_ifs <;> exact ⟨rfl, rfl, rfl⟩

/-- What another agent can change (R45): only its own state. -/
theorem applyAgent_frame (a : AgentAct) (s : State) :
    applyAgent a s = { s with
      provider := (applyAgent a s).provider, snapshot := (applyAgent a s).snapshot } := by
  rcases a with bs | v | (_ | f) | r <;> rfl

/-- What another agent leaves of the provider (R77): the bytes given to transmit and the calls made stay;
the FIFO only grows, within its capacity. -/
theorem applyAgent_provider (a : AgentAct) (s : State) :
    (applyAgent a s).provider.tx = s.provider.tx ∧
      (applyAgent a s).provider.calls = s.provider.calls ∧
      s.provider.rxFifo.length ≤ (applyAgent a s).provider.rxFifo.length ∧
      (s.provider.rxFifo.length ≤ s.cfg.rxFifoCapacity →
        (applyAgent a s).provider.rxFifo.length ≤ s.cfg.rxFifoCapacity) := by
  rcases a with bs | v | (_ | f) | r
  · exact ⟨rfl, rfl, (receiveBytes_length _ bs _).1, (receiveBytes_length _ bs _).2⟩
  all_goals exact ⟨rfl, rfl, le_rfl, id⟩

/-! ### Mode switches -/

/-- SWITCH_TX (R155). -/
theorem switchTx_eq (s : State) :
    switchTx s = { s with
      provider := providerSetMode s.cfg.providerDrainsTx s.portHandle .tx s.provider
      portMode := .tx
      trace := s.trace ++ [{ name := .mode, a := 0x01#8, b := 0x00#8, t := s.now }] } := rfl

/-- SWITCH_RX (R156). -/
theorem switchRx_eq (s : State) :
    switchRx s = { s with
      provider :=
        { providerSetMode s.cfg.providerDrainsTx s.portHandle .rx s.provider with rxFifo := [] }
      portMode := .rx
      trace := s.trace ++
        [{ name := .mode, a := 0x00#8, b := 0x00#8, t := s.now },
         { name := .discard, a := BitVec.ofNat 8 s.provider.rxFifo.length, b := 0x01#8, t := s.now }] } := by
  simp [switchRx, discardRx_eq, setMode, emitAt, reasonByte, bitOfReason, bitByte, modeBit]

/-! ### The codec -/

theorem refreshKind_eq (k : FrameKind) (v : Snapshot) (s : State) :
    refreshKind k v s = { s with mem := (refreshKind k v s).mem } := by
  unfold refreshKind
  split <;> rfl

/-- REFRESH changes the frame buffers and the trace, nothing else (R110, R128). -/
theorem refresh_eq (s : State) :
    refresh s = { s with
      mem := (refreshKind .eam s.snapshot (refreshKind .gps s.snapshot s)).mem
      trace := s.trace ++
        [{ name := .refresh, a := refreshMask (refreshWrites s .gps) (refreshWrites s .eam),
           b := 0x00#8, t := s.now }] } := by
  unfold refresh
  rw [refreshKind_eq .eam, refreshKind_eq .gps]
  rfl

theorem refreshWrites_mem (s : State) (m : Mem) (k : FrameKind) :
    refreshWrites { s with mem := m } k = refreshWrites s k := rfl

/-- Which byte a refresh of one kind leaves where (R110). -/
theorem refreshKind_mem (k : FrameKind) (v : Snapshot) (s : State) :
    (refreshKind k v s).mem =
      if refreshWrites s k then compose s.cfg k (refreshTarget s k) v s.mem else s.mem := by
  unfold refreshKind
  split <;> rfl

theorem memWf_refreshKind (k : FrameKind) (v : Snapshot) (s : State) (h : memWf s.mem = true) :
    memWf (refreshKind k v s).mem = true := by
  rw [refreshKind_mem]
  split
  · exact memWf_compose _ _ _ _ _ h
  · exact h

/-! ### The transmitter -/

/-- BEGIN_SEND with no send active (R190, R192). -/
theorem beginSend_idle (k : FrameKind) (s : State) (h : s.sendActive = false) :
    beginSend k s = { s with
      mem := swapIn s.cfg k s.mem
      sendActive := true, curFrame := k, curOffset := 0#8
      curRemaining := frameLen s.cfg k + 1#8, cksum := 0#8
      provider := providerSetMode s.cfg.providerDrainsTx s.portHandle .tx s.provider
      portMode := .tx
      tLastTx := s.now
      trace := s.trace ++
        [{ name := .beginSend, a := kindByte k, b := 0x00#8, t := s.now },
         { name := .mode, a := 0x01#8, b := 0x00#8, t := s.now }] } := by
  simp [beginSend, h, switchTx_eq, emit, emitAt]

/-- BEGIN_SEND during a send (R191). -/
theorem beginSend_rejected (k : FrameKind) (s : State) (h : s.sendActive = true) :
    beginSend k s = { s with
      trace := s.trace ++ [{ name := .beginRejected, a := kindByte k, b := 0x00#8, t := s.now }] } := by
  simp [beginSend, h, emit, emitAt]

/-- ADVANCE with a stored byte to send (R193, R194). -/
theorem advance_byte (s : State) (h : s.curRemaining ≠ 1#8) :
    advance s = { s with
      curRemaining := s.curRemaining - 1#8
      cksum := s.cksum + rd s.mem (.frame s.curFrame) s.curOffset
      provider := { s.provider with
        tx := s.provider.tx ++ [rd s.mem (.frame s.curFrame) s.curOffset], txSinceRx := true }
      curOffset := s.curOffset + 1#8
      tLastTx := s.now
      trace := s.trace ++
        [{ name := .txByte, a := rd s.mem (.frame s.curFrame) s.curOffset, b := s.curOffset,
           t := s.now }] } := by
  have h0 : s.curRemaining - 1#8 ≠ 0#8 := fun h0 => h (by bv_omega)
  simp [advance, h0, sendFrameByte, emit, emitAt, txWrite]

/-- ADVANCE that ends the send (R193, R195). -/
theorem advance_last (s : State) (h : s.curRemaining = 1#8) :
    advance s = { s with
      curRemaining := 0#8
      sendActive := false, curFrame := .gps, curOffset := 0#8, cksum := 0#8
      provider := { providerSetMode s.cfg.providerDrainsTx s.portHandle .rx
        { s.provider with tx := s.provider.tx ++ [s.cksum], txSinceRx := true } with rxFifo := [] }
      portMode := .rx
      tLastTx := s.now
      trace := s.trace ++
        [{ name := .txCksum, a := s.cksum, b := 0x00#8, t := s.now },
         { name := .mode, a := 0x00#8, b := 0x00#8, t := s.now },
         { name := .discard, a := BitVec.ofNat 8 s.provider.rxFifo.length, b := 0x01#8, t := s.now },
         { name := .sendDone, a := kindByte s.curFrame, b := 0x00#8, t := s.now }] } := by
  simp [advance, h, sendChecksumAndFinish, switchRx_eq, emit, emitAt, txWrite]

/-! ### The detector -/

/-- Fewer than 2 bytes waiting (R171). -/
theorem detect_few (s : State) (h : s.provider.rxFifo.length < 2) :
    detect s = { s with detected := none } := by
  unfold detect
  split <;> simp_all [detectReturns]

/-- More than 2 bytes waiting (R172). -/
theorem detect_noise (s : State) (h : 2 < s.provider.rxFifo.length) :
    detect s = { s with
      detected := none
      winArmed := false
      provider := { s.provider with rxFifo := [] }
      trace := s.trace ++
        [{ name := .discard, a := BitVec.ofNat 8 s.provider.rxFifo.length, b := 0x00#8,
           t := s.now }] } := by
  unfold detect
  split <;> simp_all [detectReturns, discardNoise, discardRx_eq, reasonByte, bitOfReason, bitByte]

/-- Exactly 2 bytes waiting, window not armed (R173). -/
theorem detect_arm (s : State) (h : s.provider.rxFifo.length = 2) (hw : s.winArmed = false) :
    detect s = { s with
      detected := none
      winArmed := true
      winT0 := s.now
      trace := s.trace ++ [{ name := .arm, a := 0x00#8, b := 0x00#8, t := s.now }] } := by
  unfold detect
  split <;> simp_all [detectReturns, armWindow, emit, emitAt]

/-- Exactly 2 bytes waiting, window armed, settle time not elapsed (R174). -/
theorem detect_wait (s : State) (h : s.provider.rxFifo.length = 2) (hw : s.winArmed = true)
    (ht : elapsed s.winT0 s.now < s.cfg.settleUs) :
    detect s = { s with detected := none } := by
  unfold detect
  split <;> simp_all [detectReturns]

/-- Exactly 2 bytes waiting, window armed, settle time elapsed (R175, R176). -/
theorem detect_consume (s : State) (id addr : Byte) (h : s.provider.rxFifo = [id, addr])
    (hw : s.winArmed = true) (ht : ¬ elapsed s.winT0 s.now < s.cfg.settleUs) :
    detect s = { s with
      detected := classify s.cfg id addr
      winArmed := false
      provider := { s.provider with rxFifo := [] }
      trace := s.trace ++ [{ name := .consume, a := id, b := addr, t := s.now }] } := by
  unfold detect
  simp [h, hw, ht, detectReturns, consumeRequest, emit, emitAt, rxRead]

/-- What DETECT can do (R170): everything but the window, the FIFO, the trace and the returned kind is as
it was; a kind is returned only with the window disarmed. -/
theorem detect_frame (s : State) :
    detect s = { s with
      detected := (detect s).detected
      winArmed := (detect s).winArmed
      winT0 := (detect s).winT0
      provider := { s.provider with rxFifo := (detect s).provider.rxFifo }
      trace := (detect s).trace } := by
  rcases Nat.lt_trichotomy s.provider.rxFifo.length 2 with h | h | h
  · rw [detect_few s h]
  · cases hw : s.winArmed
    · rw [detect_arm s h hw]
    · by_cases ht : elapsed s.winT0 s.now < s.cfg.settleUs
      · rw [detect_wait s h hw ht]
      · obtain ⟨id, addr, hf⟩ := List.length_eq_two.mp h
        rw [detect_consume s id addr hf hw ht]
  · rw [detect_noise s h]

/-- DETECT's window and FIFO afterwards (R171 to R175, R179). -/
theorem detect_window (s : State) :
    ((detect s).winArmed = true → 2 ≤ s.provider.rxFifo.length ∨ s.winArmed = true) ∧
      ((detect s).winArmed = true → (detect s).provider.rxFifo = s.provider.rxFifo) ∧
      ((detect s).detected.isSome = true → s.winArmed = true ∧ (detect s).winArmed = false) ∧
      (detect s).provider.rxFifo.length ≤ s.provider.rxFifo.length := by
  rcases Nat.lt_trichotomy s.provider.rxFifo.length 2 with h | h | h
  · rw [detect_few s h]
    simpa using Or.inr
  · cases hw : s.winArmed
    · rw [detect_arm s h hw]
      simp [h]
    · by_cases ht : elapsed s.winT0 s.now < s.cfg.settleUs
      · rw [detect_wait s h hw ht]
        simp
      · obtain ⟨id, addr, hf⟩ := List.length_eq_two.mp h
        rw [detect_consume s id addr hf hw ht]
        simp
  · rw [detect_noise s h]
    simp

/-! ### The dispatcher -/

/-- Step 1 of a tick (R214). -/
theorem tickRefresh_eq (s : State) :
    tickRefresh s = { s with
      mem := (tickRefresh s).mem
      trace := (tickRefresh s).trace
      tLastRefresh := if refreshDue s then s.now else s.tLastRefresh } := by
  unfold tickRefresh
  split
  · rw [refresh_eq]
  · rfl

/-- Step 2 of a tick during a send: nothing (R215). -/
theorem tickDetect_sending (s : State) (h : s.sendActive = true) : tickDetect s = s := by
  simp [tickDetect, h]

/-- Step 2 of a tick when idle and nothing is recognised (R215, R216). -/
theorem tickDetect_none (s : State) (h : s.sendActive = false) (hd : (detect s).detected = none) :
    tickDetect s = detect s := by
  simp [tickDetect, h, hd]

/-- Step 2 of a tick when a request is recognised (R215). -/
theorem tickDetect_some (s : State) (k : FrameKind) (h : s.sendActive = false)
    (hd : (detect s).detected = some k) : tickDetect s = beginSend k (detect s) := by
  simp [tickDetect, h, hd]

/-- A tick whose byte gate is shut, or with nothing to send (R216, R217). -/
theorem tickBody_quiet (s : State)
    (h : ((tickDetect (tickRefresh s)).sendActive && gateOpen (tickDetect (tickRefresh s))) = false) :
    tickBody s = .next (answer .ok
      (tickMask (refreshDue s) (!(tickRefresh s).sendActive) (tickBegins (tickRefresh s)) false false)
      (tickDetect (tickRefresh s))) := by
  simp only [tickBody, h, Bool.false_eq_true, if_false]

/-- A tick that writes a byte (R217). -/
theorem tickBody_byte (s : State)
    (h : ((tickDetect (tickRefresh s)).sendActive && gateOpen (tickDetect (tickRefresh s))) = true)
    (hc : cursorSound (tickDetect (tickRefresh s)) = true) :
    tickBody s = .next (answer .ok
      (tickMask (refreshDue s) (!(tickRefresh s).sendActive) (tickBegins (tickRefresh s)) true
        (!(advance (tickDetect (tickRefresh s))).sendActive))
      (advance (tickDetect (tickRefresh s)))) := by
  simp only [tickBody, h, hc, if_true]

/-! ### The step -/

/-- What a step does (log 1), one case for each kind of input. -/
theorem step_cases (s t : State) (h : step s = .next t) :
    configLegal s.cfg = true ∧
      ((s.inputs = [] ∧ t = s) ∨
       (∃ rest, s.inputs = .reset :: rest ∧ t = resetBlock { s with inputs := rest }) ∨
       (∃ a rest, s.inputs = .agent a :: rest ∧ t = applyAgent a { s with inputs := rest }) ∨
       (∃ c i rest, s.inputs = .code c :: rest ∧
          (decode s.cfg c = .ok i ∨ decode s.cfg c = .rejected (.mustBeZero i)) ∧
          exec i { s with inputs := rest } = .next t) ∨
       (∃ c op rest, s.inputs = .code c :: rest ∧ decode s.cfg c = .rejected (.reservedOpcode op) ∧
          t = reservedCommand op { s with inputs := rest })) := by
  unfold step at h
  split at h
  · cases h
  · rename_i hl
    refine ⟨by simpa using hl, ?_⟩
    split at h
    · rename_i hi
      exact .inl ⟨hi, by cases h; rfl⟩
    · rename_i rest hi
      exact .inr (.inl ⟨rest, hi, by cases h; rfl⟩)
    · rename_i a rest hi
      exact .inr (.inr (.inl ⟨a, rest, hi, by cases h; rfl⟩))
    · rename_i c rest hi
      split at h
      · rename_i i hd
        exact .inr (.inr (.inr (.inl ⟨c, i, rest, hi, .inl hd, h⟩)))
      · rename_i i hd
        exact .inr (.inr (.inr (.inl ⟨c, i, rest, hi, .inr hd, h⟩)))
      · rename_i op hd
        exact .inr (.inr (.inr (.inr ⟨c, op, rest, hi, hd, by cases h; rfl⟩)))
      all_goals cases h

end Sys2Proof.Machine
end

