-- ==== Sys2Proof/Laws/Step.lean ====
section
/-! SUPPORT. What a step, a host command and a TICK can do, as lemmas the proofs about runs cite instead of
unfolding the dispatcher. -/

namespace Sys2Proof.Machine

/-! ### Legal configurations -/

theorem configLegal_lengths (cfg : Config) (h : configLegal cfg = true) :
    30 ≤ cfg.gpsLen.toNat ∧ cfg.gpsLen.toNat ≤ 254 ∧ 33 ≤ cfg.eamLen.toNat ∧ cfg.eamLen.toNat ≤ 254 := by
  simp only [configLegal, Bool.and_eq_true, decide_eq_true_eq, bne_iff_ne] at h
  obtain ⟨⟨⟨⟨h1, h2⟩, h3⟩, h4⟩, _⟩ := h.1.1.1.1.1
  refine ⟨?_, ?_, ?_, ?_⟩ <;> bv_omega

theorem frameLen_bounds (cfg : Config) (h : configLegal cfg = true) (k : FrameKind) :
    30 ≤ (frameLen cfg k).toNat ∧ (frameLen cfg k).toNat ≤ 254 := by
  have := configLegal_lengths cfg h
  cases k <;> simp only [frameLen] <;> omega

theorem frameLen_pred (cfg : Config) (h : configLegal cfg = true) (k : FrameKind) :
    (frameLen cfg k - 1#8).toNat = (frameLen cfg k).toNat - 1 := by
  have := frameLen_bounds cfg h k
  bv_omega

theorem textOff_cases (cfg : Config) :
    (textOff cfg = 2#8 ∧ warnOff cfg = 3#8) ∨ (textOff cfg = 3#8 ∧ warnOff cfg = 2#8) := by
  unfold textOff warnOff
  cases cfg.headerOrder <;> simp

theorem configLegal_addresses (cfg : Config) (h : configLegal cfg = true) : cfg.gpsAddr ≠ cfg.eamAddr := by
  simp only [configLegal, Bool.and_eq_true, bne_iff_ne] at h
  tauto

/-- The byte gate is shut in the tick that starts a send (R220 (b)). -/
theorem interByte_pos (cfg : Config) (h : configLegal cfg = true) : ¬ cfg.interByteUs ≤ 0#32 := by
  simp only [configLegal, Bool.and_eq_true, intervalLegal, decide_eq_true_eq] at h
  have := h.1.1.1.2.1
  bv_omega

/-! ### Command words -/

theorem rejoin40 (w : BitVec 40) : (w.extractLsb' 32 8 ++ w.extractLsb' 0 32 : BitVec 40) = w :=
  (BitVec.extractLsb'_append_extractLsb'_eq_extractLsb' (x := w) (start₁ := 0) (len₁ := 32) (start₂ := 32)
    (len₂ := 8) rfl).trans (by simp)

theorem rejoin16 (w : BitVec 16) : (w.extractLsb' 8 8 ++ w.extractLsb' 0 8 : BitVec 16) = w :=
  (BitVec.extractLsb'_append_extractLsb'_eq_extractLsb' (x := w) (start₁ := 0) (len₁ := 8) (start₂ := 8)
    (len₂ := 8) rfl).trans (by simp)

/-- Every host word is a command word of its opcode and operand (R80). -/
theorem hostWord_eta (w : BitVec 40) : (.host w : Code) = hostWord (opcodeOf w) (operandOf w) := by
  unfold hostWord opcodeOf operandOf
  rw [rejoin40]

theorem hostWord_inj {a b : Byte} {x y : Word32} (h : hostWord a x = hostWord b y) : a = b ∧ x = y := by
  injection h with h
  have h1 : (a ++ x : BitVec 40).extractLsb' 32 8 = (b ++ y : BitVec 40).extractLsb' 32 8 := by rw [h]
  have h2 : (a ++ x : BitVec 40).extractLsb' 0 32 = (b ++ y : BitVec 40).extractLsb' 0 32 := by rw [h]
  rw [extract_high, extract_high] at h1
  rw [extract_low, extract_low] at h2
  exact ⟨h1, h2⟩

/-- The opcodes Table H reserves. -/
theorem hostCommand_none (opcode : Byte) (op : Word32) :
    hostCommand opcode op = none ↔ (opcode = 0x00#8 ∨ 0x07#8 ≤ opcode) := by
  unfold hostCommand
  constructor
  · intro h
    split_ifs at h
    by_contra hc
    simp only [not_or] at hc
    bv_omega
  · intro h
    split_ifs <;> first | rfl | (exfalso; bv_omega)

/-- A step that takes a command word: a reserved opcode faults, every other word runs its command, whatever
its operand. -/
theorem step_host (s : State) (opcode : Byte) (op : Word32) (rest : List Input)
    (hl : configLegal s.cfg = true) (hi : s.inputs = .code (hostWord opcode op) :: rest) :
    step s = match hostCommand opcode op with
      | none => .next (reservedCommand opcode { s with inputs := rest })
      | some i => exec i { s with inputs := rest } := by
  simp only [step, hl, hi, decode_hostWord]
  cases hostCommand opcode op with
  | none => simp
  | some i => by_cases hw : wellFormed s.cfg i = true <;> simp [hw]

/-- What a host word decodes to, legal or with a must-be-0 bit set, is its opcode's command. -/
theorem decode_host_mem (cfg : Config) (w : Word40) (i : Instr)
    (h : decode cfg (.host w) = .ok i ∨ decode cfg (.host w) = .rejected (.mustBeZero i)) :
    hostCommand (opcodeOf w) (operandOf w) = some i := by
  rw [hostWord_eta, decode_hostWord] at h
  cases hc : hostCommand (opcodeOf w) (operandOf w) with
  | none => simp [hc] at h
  | some j =>
    simp only [hc] at h
    split_ifs at h <;> simp_all

/-- Raising a fault, as one record update (R241). -/
theorem raiseFault_after (c : FaultCode) (o : Byte) (t : Word32) (s : State) :
    raiseFault c o t s = afterFault (faultBits c) o t s := rfl

/-! ### Observation -/

theorem operand_high_zero (op : Word32) : op.extractLsb' 16 16 = 0#16 ↔ op ≤ 0xFFFF#32 := by
  constructor
  · intro hc
    have := congrArg BitVec.toNat hc
    simp [BitVec.extractLsb'_toNat, Nat.shiftRight_eq_div_pow] at this
    bv_omega
  · intro h
    apply BitVec.eq_of_toNat_eq
    simp [BitVec.extractLsb'_toNat, Nat.shiftRight_eq_div_pow]
    bv_omega

theorem operand_low (op : Word32) (h : op ≤ 0xFFFF#32) : (op.extractLsb' 0 16).toNat = op.toNat := by
  simp [BitVec.extractLsb'_toNat]
  bv_omega

theorem observeBuf_at (s : State) (b : Buf) (j : Byte) (h : j < frameLen s.cfg (bufKind b)) :
    observeBuf s b (bufBase b + j.toNat) = some ((rd s.mem b j).setWidth 32) := by
  have : j.toNat < (frameLen s.cfg (bufKind b)).toNat := h
  simp [observeBuf, this]

theorem observeBuf_none (s : State) (b : Buf) (i : Nat)
    (h : ¬ (bufBase b ≤ i ∧ i < bufBase b + (frameLen s.cfg (bufKind b)).toNat)) :
    observeBuf s b i = none := if_neg h

/-! ### The FIFO and the detector -/

/-- Arriving bytes fill the FIFO up to its capacity (R69). -/
theorem receiveBytes_eq (n : Nat) (bs fifo : List Byte) (h : fifo.length ≤ n) :
    receiveBytes n bs fifo = (fifo ++ bs).take n := by
  induction bs generalizing fifo with
  | nil => simp [receiveBytes, List.take_of_length_le h]
  | cons b rest ih =>
    rw [receiveBytes]
    unfold receiveByte
    split_ifs with hlt
    · rw [ih _ (by simp; omega)]
      simp
    · rw [ih _ h, List.take_append_of_le_length (by omega), List.take_append_of_le_length (by omega)]

/-- The five things DETECT can do (R171 to R176). -/
theorem detect_cases (s : State) :
    (s.provider.rxFifo.length < 2 ∧ detect s = { s with detected := none }) ∨
    (2 < s.provider.rxFifo.length ∧ detect s = { s with
      detected := none, winArmed := false, provider := { s.provider with rxFifo := [] }
      trace := s.trace ++
        [{ name := .discard, a := BitVec.ofNat 8 s.provider.rxFifo.length, b := 0x00#8, t := s.now }] }) ∨
    (s.provider.rxFifo.length = 2 ∧ s.winArmed = false ∧ detect s = { s with
      detected := none, winArmed := true, winT0 := s.now
      trace := s.trace ++ [{ name := .arm, a := 0x00#8, b := 0x00#8, t := s.now }] }) ∨
    (s.provider.rxFifo.length = 2 ∧ s.winArmed = true ∧ elapsed s.winT0 s.now < s.cfg.settleUs ∧
      detect s = { s with detected := none }) ∨
    (∃ id addr, s.provider.rxFifo = [id, addr] ∧ s.winArmed = true ∧
      ¬ elapsed s.winT0 s.now < s.cfg.settleUs ∧ detect s = { s with
        detected := classify s.cfg id addr, winArmed := false
        provider := { s.provider with rxFifo := [] }
        trace := s.trace ++ [{ name := .consume, a := id, b := addr, t := s.now }] }) := by
  rcases Nat.lt_trichotomy s.provider.rxFifo.length 2 with h | h | h
  · exact .inl ⟨h, detect_few s h⟩
  · by_cases hw : s.winArmed = true
    · by_cases ht : elapsed s.winT0 s.now < s.cfg.settleUs
      · exact .inr (.inr (.inr (.inl ⟨h, hw, ht, detect_wait s h hw ht⟩)))
      · obtain ⟨id, addr, hf⟩ := List.length_eq_two.mp h
        exact .inr (.inr (.inr (.inr ⟨id, addr, hf, hw, ht, detect_consume s id addr hf hw ht⟩)))
    · have hw : s.winArmed = false := by simpa using hw
      exact .inr (.inr (.inl ⟨h, hw, detect_arm s h hw⟩))
  · exact .inr (.inl ⟨h, detect_noise s h⟩)

/-! ### TICK -/

theorem refreshDue_iff (s : State) : refreshDue s = true ↔ s.cfg.refreshIntervalUs ≤ s.now - s.tLastRefresh := by
  simp only [refreshDue, elapsed]
  exact decide_eq_true_iff

theorem gateOpen_iff (s : State) : gateOpen s = true ↔ s.cfg.interByteUs ≤ s.now - s.tLastTx := by
  simp only [gateOpen, elapsed]
  exact decide_eq_true_iff

theorem cursorSound_iff (s : State) : cursorSound s = true ↔
    (s.curRemaining ≠ 0#8 ∧ (s.curRemaining ≠ 1#8 → s.curOffset < frameLen s.cfg s.curFrame)) := by
  unfold cursorSound
  by_cases h1 : s.curRemaining = 1#8
  · simp [h1]
  · by_cases h0 : s.curRemaining = 0#8 <;> simp [h0, h1]

/-- A TICK that passes its checks runs its body (R212, R213). -/
theorem execTick_checked (s : State) (now : Word32) (hf : s.fault = 0#8) (hi : s.initDone = true)
    (ha : s.portAcquired = true) : exec (.tick now) s = tickBody { s with now := now } := by
  simp only [exec, execTick]
  rw [if_neg (by simp [hf]), if_neg (by simp [hi]), if_neg (by simp [ha])]

/-- The three things step 2 can do (R215, R216). -/
theorem tickDetect_cases (s : State) :
    (s.sendActive = true ∧ tickDetect s = s) ∨
    (s.sendActive = false ∧ (detect s).detected = none ∧ tickDetect s = detect s) ∨
    (s.sendActive = false ∧ ∃ k, (detect s).detected = some k ∧ tickDetect s = beginSend k (detect s)) := by
  cases h : s.sendActive
  · cases hd : (detect s).detected with
    | none => exact .inr (.inl ⟨rfl, rfl, tickDetect_none s h hd⟩)
    | some k => exact .inr (.inr ⟨rfl, k, rfl, tickDetect_some s k h hd⟩)
  · exact .inl ⟨rfl, tickDetect_sending s h⟩

/-- What a tick's body answers: steps 1 and 2, then a byte if a send is active and its gate is open. -/
theorem tickBody_next (s t : State) (h : tickBody s = .next t) : ∃ m,
    (t = answer .ok m (tickDetect (tickRefresh s)) ∧
      ((tickDetect (tickRefresh s)).sendActive && gateOpen (tickDetect (tickRefresh s))) = false) ∨
    (t = answer .ok m (advance (tickDetect (tickRefresh s))) ∧
      (tickDetect (tickRefresh s)).sendActive = true ∧ gateOpen (tickDetect (tickRefresh s)) = true ∧
      cursorSound (tickDetect (tickRefresh s)) = true) := by
  cases hg : ((tickDetect (tickRefresh s)).sendActive && gateOpen (tickDetect (tickRefresh s)))
  · rw [tickBody_quiet s hg] at h
    cases h
    exact ⟨_, .inl ⟨rfl, rfl⟩⟩
  · cases hc : cursorSound (tickDetect (tickRefresh s))
    · simp [tickBody, hg, hc] at h
    · rw [tickBody_byte s hg hc] at h
      cases h
      simp only [Bool.and_eq_true] at hg
      exact ⟨_, .inr ⟨rfl, hg.1, hg.2, rfl⟩⟩

/-- What no sub-operation changes: the results, the fault, the inputs, the configuration, the session, the
held port and the tick's `now`. -/
structure SubopKeeps (s t : State) : Prop where
  results : t.results = s.results
  fault : t.fault = s.fault
  inputs : t.inputs = s.inputs
  cfg : t.cfg = s.cfg
  initDone : t.initDone = s.initDone
  portAcquired : t.portAcquired = s.portAcquired
  now : t.now = s.now

theorem SubopKeeps.refl (s : State) : SubopKeeps s s := ⟨rfl, rfl, rfl, rfl, rfl, rfl, rfl⟩

theorem SubopKeeps.trans {s t u : State} (h : SubopKeeps s t) (g : SubopKeeps t u) : SubopKeeps s u :=
  ⟨g.results.trans h.results, g.fault.trans h.fault, g.inputs.trans h.inputs, g.cfg.trans h.cfg,
    g.initDone.trans h.initDone, g.portAcquired.trans h.portAcquired, g.now.trans h.now⟩

theorem tickRefresh_keeps (s : State) : SubopKeeps s (tickRefresh s) := by
  rw [tickRefresh_eq]
  exact ⟨rfl, rfl, rfl, rfl, rfl, rfl, rfl⟩

theorem detect_keeps (s : State) : SubopKeeps s (detect s) := by
  rw [detect_frame]
  exact ⟨rfl, rfl, rfl, rfl, rfl, rfl, rfl⟩

theorem beginSend_keeps (k : FrameKind) (s : State) : SubopKeeps s (beginSend k s) := by
  cases h : s.sendActive
  · rw [beginSend_idle k s h]
    exact ⟨rfl, rfl, rfl, rfl, rfl, rfl, rfl⟩
  · rw [beginSend_rejected k s h]
    exact ⟨rfl, rfl, rfl, rfl, rfl, rfl, rfl⟩

theorem advance_keeps (s : State) : SubopKeeps s (advance s) := by
  by_cases h : s.curRemaining = 1#8
  · rw [advance_last s h]
    exact ⟨rfl, rfl, rfl, rfl, rfl, rfl, rfl⟩
  · rw [advance_byte s h]
    exact ⟨rfl, rfl, rfl, rfl, rfl, rfl, rfl⟩

theorem tickDetect_keeps (s : State) : SubopKeeps s (tickDetect s) := by
  rcases tickDetect_cases s with ⟨_, h⟩ | ⟨_, _, h⟩ | ⟨_, k, _, h⟩ <;> rw [h]
  · exact SubopKeeps.refl s
  · exact detect_keeps s
  · exact (detect_keeps s).trans (beginSend_keeps k _)

/-- Step 1 leaves the cursor, the window, the timers but its own, and the provider alone (R128). -/
theorem tickRefresh_cursor (s : State) :
    (tickRefresh s).sendActive = s.sendActive ∧ (tickRefresh s).curRemaining = s.curRemaining ∧
    (tickRefresh s).curOffset = s.curOffset ∧ (tickRefresh s).curFrame = s.curFrame ∧
    (tickRefresh s).tLastTx = s.tLastTx ∧ (tickRefresh s).provider = s.provider ∧
    (tickRefresh s).winArmed = s.winArmed ∧ (tickRefresh s).winT0 = s.winT0 ∧
    (tickRefresh s).cksum = s.cksum ∧ (tickRefresh s).portMode = s.portMode := by
  rw [tickRefresh_eq]
  simp

/-- DETECT leaves the cursor, the port, the frame buffers and the transmitted bytes alone. -/
theorem detect_cursor (s : State) :
    (detect s).sendActive = s.sendActive ∧ (detect s).curRemaining = s.curRemaining ∧
    (detect s).curOffset = s.curOffset ∧ (detect s).curFrame = s.curFrame ∧
    (detect s).tLastTx = s.tLastTx ∧ (detect s).cksum = s.cksum ∧ (detect s).portMode = s.portMode ∧
    (detect s).mem = s.mem ∧ (detect s).provider.tx = s.provider.tx ∧
    (detect s).provider.calls = s.provider.calls := by
  rw [detect_frame]
  simp

/-! ### ACQUIRE -/

/-- What ACQUIRE leaves alone, whatever it answers (R150 to R153). -/
theorem execAcquire_keeps (op : Word32) (s t : State) (h : execAcquire op s = .next t) :
    t.cfg = s.cfg ∧ t.mem = s.mem ∧ t.initDone = s.initDone ∧ t.sendActive = s.sendActive ∧
    t.curOffset = s.curOffset ∧ t.cksum = s.cksum ∧ t.provider.tx = s.provider.tx ∧
    t.provider.rxFifo = s.provider.rxFifo := by
  have hopen := providerOpenPort_frame s.cfg.functionTag s.cfg.baud .rx s.config
    (callPort (.findPort s.cfg.functionTag) s.provider)
  unfold execAcquire answerFaulted at h
  split_ifs at h
  all_goals try (cases h; exact ⟨rfl, rfl, rfl, rfl, rfl, rfl, rfl, rfl⟩)
  split at h
  · cases h
    exact ⟨rfl, rfl, rfl, rfl, rfl, rfl, rfl, rfl⟩
  · split at h <;> cases h <;>
      simp [acquireDone, acquireOpened, raiseFault, callOpenPort, callFindPort, hopen.1, hopen.2.1]

/-! ### The codec -/

theorem refreshWrites_iff (s : State) (k : FrameKind) : refreshWrites s k = true ↔ mayRefresh s k := by
  unfold refreshWrites mayRefresh
  cases h : s.cfg.refreshPolicy <;> simp
  cases s.sendActive <;> simp

theorem refreshTarget_eq (s : State) (k : FrameKind) :
    refreshTarget s k = if s.cfg.refreshPolicy = .double then Buf.next k else Buf.frame k := by
  unfold refreshTarget
  cases h : s.cfg.refreshPolicy <;> simp

/-- Looking an offset up in a table, one row at a time. -/
theorem lookup_row (j a x old : Byte) (rows : List (Byte × Byte)) :
    (((a, x) :: rows).lookup j).getD old = if j = a then x else (rows.lookup j).getD old := by
  rw [List.lookup_cons]
  by_cases h : j = a
  · simp [h]
  · rw [beq_eq_false_iff_ne.mpr h, if_neg h]

/-! ### Sums of bytes -/

theorem sumBytes_snoc (l : List Byte) (b : Byte) : sumBytes (l ++ [b]) = sumBytes l + b := by
  simp [sumBytes]

theorem foldl_add (l : List Byte) (c : Byte) :
    l.foldl (fun c b => c + b) c = c + l.foldl (fun c b => c + b) 0#8 := by
  induction l generalizing c with
  | nil => simp
  | cons x l ih =>
    simp only [List.foldl_cons]
    rw [ih, ih (0#8 + x)]
    simp [BitVec.add_assoc]

theorem sumBytes_cons (b : Byte) (l : List Byte) : sumBytes (b :: l) = b + sumBytes l := by
  simp only [sumBytes, List.foldl_cons]
  rw [foldl_add]
  simp

theorem frameBytes_succ (m : Mem) (k : FrameKind) (i n : Nat) :
    frameBytes m k i (n + 1) = rd m (.frame k) (BitVec.ofNat 8 i) :: frameBytes m k (i + 1) n := by
  simp [frameBytes, List.range'_succ]

/-! ### Runs -/

theorem core_run_succ (M : Host.Core) (n : Nat) (s t : M.State) (h : M.step s = .next t) :
    M.run (n + 1) s = M.run n t := by
  simp only [Host.Core.run, h]

end Sys2Proof.Machine
end

