-- ==== Sys2Proof/Tests/Slice0.lean ====
section
/-! SUPPORT. Tests of one step each, on small states, and the witnesses that the hypotheses of the statements
can be met. Expected values come from spec/30_encoding.md and spec/95_test_vectors.md (V<n>, P<n>). -/

namespace Sys2Proof.Tests

open Sys2Proof Sys2Proof.Machine

/-! ### WellFormed refuses an ill-formed term, for each check -/

theorem test_wf_refuses_acquire_operand : wellFormed Config.default (.acquire 1#32) = false := by decide
theorem test_wf_refuses_release_operand : wellFormed Config.default (.release 0x80000000#32) = false := by decide
theorem test_wf_refuses_query_baud_operand : wellFormed Config.default (.queryBaud 1#32) = false := by decide
theorem test_wf_refuses_obs_read_high_bit : wellFormed Config.default (.obsRead 0x00010000#32) = false := by
  decide
theorem test_wf_refuses_bin_other_gps : wellFormed Config.default (.reqBinOther 0x8A#8) = false := by decide
theorem test_wf_refuses_bin_other_eam : wellFormed Config.default (.reqBinOther 0x8E#8) = false := by decide
theorem test_wf_refuses_other_binary_id : wellFormed Config.default (.reqOther 0x80#8 0#8) = false := by decide
theorem test_wf_refuses_shadowed_eam_request :
    wellFormed { Config.default with eamAddr := 0x8A#8 } .reqEam = false := by decide
theorem test_wf_refuses_shadowed_eam_response :
    wellFormed { Config.default with eamClassId := 0x8A#8, headerOrder := .hott } .respEam = false := by decide

/-! ### One written-out word for each row of the table (30_encoding.md Tables H, Q, R2, U) -/

theorem test_decode_init : decodeTableWord 40 0x01DEADBEEF = some (.init 0xDEADBEEF#32) := by decide
theorem test_decode_acquire : decodeTableWord 40 0x0200000000 = some (.acquire 0#32) := by decide
theorem test_decode_release : decodeTableWord 40 0x0300000000 = some (.release 0#32) := by decide
theorem test_decode_tick : decodeTableWord 40 0x0400030D40 = some (.tick 200000#32) := by decide
theorem test_decode_query_baud : decodeTableWord 40 0x0500000000 = some (.queryBaud 0#32) := by decide
theorem test_decode_obs_read : decodeTableWord 40 0x0600000101 = some (.obsRead 0x101#32) := by decide
theorem test_decode_req_gps : decodeTableWord 16 0x808A = some .reqGps := by decide
theorem test_decode_req_eam : decodeTableWord 16 0x808E = some .reqEam := by decide
theorem test_decode_req_bin_other : decodeTableWord 16 0x8099 = some (.reqBinOther 0x99#8) := by decide
theorem test_decode_req_other : decodeTableWord 16 0x7F8A = some (.reqOther 0x7F#8 0x8A#8) := by decide
theorem test_decode_resp_gps : decodeTableWord 24 0x7C8AA0 = some .respGps := by decide
theorem test_decode_resp_eam : decodeTableWord 24 0x7C8EE0 = some .respEam := by decide
theorem test_decode_refresh : decodeTableWord 4 0 = some .refresh := by decide
theorem test_decode_detect : decodeTableWord 4 1 = some .detect := by decide
theorem test_decode_begin_send : decodeTableWord 4 2 = some (.beginSend .gps) := by decide
theorem test_decode_advance : decodeTableWord 4 3 = some .advance := by decide
theorem test_decode_switch_tx : decodeTableWord 4 4 = some .switchTx := by decide
theorem test_decode_switch_rx : decodeTableWord 4 5 = some .switchRx := by decide
theorem test_decode_discard_rx : decodeTableWord 4 6 = some (.discardRx .noise) := by decide
theorem test_decode_refuses_reserved_opcode : decodeTableWord 40 0xFF12345678 = none := by decide

/-- Where the two response headers coincide the GPS row wins (log 29). -/
theorem test_decode_coinciding_headers :
    decode { Config.default with eamClassId := 0x8A#8, headerOrder := .hott } (.response 0x7C8A00#24) =
      .ok .respGps := by decide

/-! ### Small states -/

/-- The next state of an outcome satisfies `p`. -/
def after (o : Host.Outcome State Fault Refusal) (p : State → Bool) : Bool :=
  match o with
  | .next t => p t
  | .fault _ => false
  | .refused _ => false

/-- The state after `INIT 0`, its frame buffers left empty. -/
def inited : State := { State.reset with initDone := true }

/-- The same with the frame buffers as INIT leaves them. -/
def framed : State := { inited with mem := initBufs Config.default [] }

/-- The state after `INIT 0` and `ACQUIRE` of a port opened as handle 7 (V29 to V43). -/
def listening : State :=
  { inited with
    portAcquired := true, portHandle := 7#32, portBaud := 19200#32, savedBaud := 19200#32
    provider := { Provider.initial with
      ports := [{ handle := 7#32, mode := .rx, baud := 19200#32, tags := [1#32] }] } }

/-- `listening` with the bytes `bs` waiting. -/
def waiting (bs : List Byte) : State :=
  { listening with provider := { listening.provider with rxFifo := bs } }

/-- A GPS request seen at 1000 (V32). -/
def armed : State := { waiting [0x80#8, 0x8A#8] with winArmed := true, winT0 := 1000#32 }

/-- An EAM send begun at 5000, `n` bytes of its 45 left, the accumulator at `c`. -/
def sending (n : Byte) (c : Byte) : State :=
  { listening with
    portMode := .tx, sendActive := true, curFrame := .eam, curOffset := 45#8 - n, curRemaining := n
    cksum := c, tLastTx := 5000#32, now := 5000#32 }

/-- The command word `opcode operand` presented to `s`. -/
def withWord (opcode : Byte) (op : Word32) (s : State) : State := { s with inputs := [.code (hostWord opcode op)] }

/-- A shared port at handle 3 in TX mode at 115200 baud (V51). -/
def sharedPort : Port := { handle := 3#32, mode := .tx, baud := 115200#32, tags := [1#32] }

/-- `inited` with the shared port open. -/
def shared : State := { inited with provider := { Provider.initial with ports := [sharedPort] } }

/-- The snapshot of V15 with `vbat` = 126. -/
def flying : Snapshot where
  fix := true
  numSat := 6#8
  lat := 123456789#32
  lon := -98765432#32
  speed := 250#16
  alt := 1234#32
  distHome := 1000#16
  dirHome := 270#16
  vbat := 126#16

/-- A faulted block (V68). -/
def faulted : State := { listening with fault := 0x07#8 }

/-! ### Host commands, one step each -/

/-- V69: the headers, the stop byte and the first index past the frame. -/
theorem test_init_writes_headers :
    after (exec (.init 2#32) State.reset) (fun t =>
      decide (t.config = 2#32 ∧ rd t.mem (.frame .gps) 0#8 = 0x7C#8 ∧ rd t.mem (.next .eam) 1#8 = 0x8E#8 ∧
        rd t.mem (.frame .eam) 2#8 = 0xE0#8 ∧ rd t.mem (.frame .gps) 43#8 = 0x7D#8)) = true := by
  decide +kernel

/-- V68: INIT while a port is held. -/
theorem test_init_while_acquired :
    after (exec (.init 1#32) listening) (fun t => decide (t.results = [0x0200000007#40])) = true := by decide

/-- V50: the provider calls and the STATUS of ACQUIRE on the open path. -/
theorem test_acquire_opens :
    after (exec (.acquire 0#32) { inited with config := 5#32 }) (fun t =>
      decide (t.provider.calls = [.findPort 1#32, .openPort 1#32 19200#32 .rx 5#32] ∧
        statusWord t = 0x00000003#32 ∧ t.portHandle = 7#32)) = true := by decide

/-- V51: ACQUIRE on the found path. -/
theorem test_acquire_shared :
    after (exec (.acquire 0#32) shared) (fun t =>
      decide (statusWord t = 0x00000017#32 ∧ t.savedBaud = 115200#32 ∧
        t.provider.calls = [.findPort 1#32, .setBaud 19200#32, .setMode .rx, .beginFunction 3#32 1#32])) =
      true := by decide

/-- V51: RELEASE restores TX and 115200. -/
theorem test_release_restores :
    after (exec (.release 0#32) { listening with savedMode := .tx, savedBaud := 115200#32 }) (fun t =>
      decide (statusWord t = 0x00000019#32 ∧ t.portBaud = 115200#32 ∧
        t.provider.calls = [.setMode .tx, .setBaud 115200#32, .endFunction 7#32 1#32])) = true := by decide

/-- V55: RELEASE during a send. -/
theorem test_release_while_sending :
    after (exec (.release 0#32) (sending 44#8 0x7C#8)) (fun t =>
      decide (t.results = [0x0200000006#40] ∧ t.portMode = .tx)) = true := by decide

/-- V30: the settled request is consumed and its send begun in one tick. -/
theorem test_tick_begins_send :
    after (exec (.tick 5000#32) armed) (fun t =>
      decide (t.results = [0x0000000006#40] ∧ statusWord t = 0x002D004B#32)) = true := by decide

/-- V41: a tick one microsecond early writes nothing. -/
theorem test_tick_gate :
    after (exec (.tick 7999#32) (sending 45#8 0#8)) (fun t =>
      decide (t.results = [0x0000000000#40] ∧ t.provider.tx = [])) = true := by decide

/-- V60: QUERY_BAUD before INIT. -/
theorem test_query_baud :
    after (exec (.queryBaud 0#32) State.reset) (fun t => decide (t.results = [0x0000004B00#40])) = true := by
  decide

/-- V67: QUERY_BAUD with a nonzero operand. -/
theorem test_query_baud_operand :
    after (exec (.queryBaud 1#32) State.reset) (fun t => decide (t.results = [0x0200000001#40])) = true := by
  decide

/-- V60: index 9 is not in Table O. -/
theorem test_obs_read_bad_index :
    after (exec (.obsRead 9#32) State.reset) (fun t =>
      decide (t.results = [0x0300000000#40] ∧ t.fault = 0#8)) = true := by decide

/-- V69: the last byte of `FRAME_GPS`. -/
theorem test_obs_read_stop_byte :
    after (exec (.obsRead 0x12B#32) framed) (fun t => decide (t.results = [0x000000007D#40])) = true := by
  decide +kernel

/-! ### Request and response rows -/

/-- Table Q: a GPS poll begins a GPS send. -/
theorem test_req_gps :
    after (exec .reqGps listening) (fun t => decide (t.curFrame = .gps ∧ t.curRemaining = 45#8)) = true := by
  decide

/-- Table Q: an EAM poll begins an EAM send. -/
theorem test_req_eam :
    after (exec .reqEam listening) (fun t => decide (statusWord t = 0x002D00CB#32)) = true := by decide

/-- V34. -/
theorem test_req_bin_other : after (exec (.reqBinOther 0x99#8) listening) (fun t => decide (t = listening)) =
    true := by decide

/-- V35. -/
theorem test_req_other : after (exec (.reqOther 0x7F#8 0x8A#8) listening) (fun t => decide (t = listening)) =
    true := by decide

/-- V15: longitude −98765432 and direction 270. -/
theorem test_resp_gps :
    after (exec .respGps { listening with snapshot := flying }) (fun t =>
      decide (rd t.mem (.frame .gps) 14#8 = 0x01#8 ∧ rd t.mem (.frame .gps) 15#8 = 0xB8#8 ∧
        rd t.mem (.frame .gps) 28#8 = 0x0E#8 ∧ rd t.mem (.frame .eam) 20#8 = 0x00#8)) = true := by decide

/-- V16. -/
theorem test_resp_eam :
    after (exec .respEam { listening with snapshot := flying }) (fun t =>
      decide (rd t.mem (.frame .eam) 20#8 = 0x7E#8 ∧ rd t.mem (.frame .eam) 30#8 = 0x7E#8 ∧
        rd t.mem (.frame .gps) 26#8 = 0x00#8)) = true := by decide

/-! ### Sub-operations -/

/-- V18, `GATE`: the frame being sent is skipped. -/
theorem test_refresh_gate :
    after (exec .refresh { sending 30#8 0#8 with curFrame := .gps, snapshot := flying }) (fun t =>
      decide (t.trace = [{ name := .refresh, a := 0x02#8, b := 0x00#8, t := 5000#32 }] ∧
        rd t.mem (.frame .gps) 26#8 = 0x00#8 ∧ rd t.mem (.frame .eam) 30#8 = 0x7E#8)) = true := by decide

/-- V18, `DOUBLE`: both next-refresh buffers. -/
theorem test_refresh_double :
    after (exec .refresh { sending 30#8 0#8 with
        snapshot := flying, cfg := { Config.default with refreshPolicy := .double } }) (fun t =>
      decide (rd t.mem (.next .gps) 26#8 = 0x06#8 ∧ rd t.mem (.next .eam) 30#8 = 0x7E#8 ∧
        rd t.mem (.frame .gps) 26#8 = 0x00#8)) = true := by decide

/-- V37: three bytes are noise. -/
theorem test_detect_noise :
    after (exec .detect (waiting [0x80#8, 0x8A#8, 0x00#8])) (fun t =>
      decide (t.provider.rxFifo = [] ∧ t.winArmed = false ∧ t.detected = none)) = true := by decide

/-- R177: the window works across the wrap of `now`. -/
theorem test_detect_wrap :
    after (exec .detect { armed with winT0 := 0xFFFFF000#32, now := 0#32 }) (fun t =>
      decide (t.detected = some .gps)) = true := by decide

/-- R190's example. -/
theorem test_begin_send :
    after (exec (.beginSend .eam) { listening with now := 14000#32 }) (fun t =>
      decide (t.curRemaining = 45#8 ∧ t.portMode = .tx ∧ t.tLastTx = 14000#32)) = true := by decide

/-- R193's example. -/
theorem test_advance_first :
    after (exec .advance { sending 45#8 0#8 with mem := framed.mem }) (fun t =>
      decide (t.provider.tx = [0x7C#8] ∧ t.curRemaining = 44#8 ∧ t.curOffset = 1#8 ∧ t.cksum = 0x7C#8)) =
      true := by decide +kernel

/-- V43 and V42b: the checksum ends the send. -/
theorem test_advance_checksum :
    after (exec .advance { sending 1#8 0x67#8 with
        provider := { listening.provider with rxFifo := [0x80#8, 0x8A#8] } }) (fun t =>
      decide (t.provider.tx = [0x67#8] ∧ t.provider.rxFifo = [] ∧ statusWord t = 0x00000003#32)) = true := by
  decide

/-- R155. -/
theorem test_switch_tx : after (exec .switchTx listening) (fun t =>
    decide (t.portMode = .tx ∧ t.provider.calls = [.setMode .tx])) = true := by decide

/-- R156's example. -/
theorem test_switch_rx : after (exec .switchRx (waiting [1#8, 2#8, 3#8])) (fun t =>
    decide (t.provider.rxFifo = [] ∧
      t.trace = [{ name := .mode, a := 0#8, b := 0#8, t := 0#32 },
        { name := .discard, a := 3#8, b := 1#8, t := 0#32 }])) = true := by decide

/-- R157's example. -/
theorem test_discard_rx : after (exec (.discardRx .noise) (waiting [0x80#8, 0x8A#8, 0x00#8])) (fun t =>
    decide (t.provider.rxFifo = [] ∧
      t.trace = [{ name := .discard, a := 3#8, b := 0#8, t := 0#32 }])) = true := by decide

/-! ### Field conversions -/

/-- V10: −98765432 in both sign modes. -/
theorem test_coord_modes :
    coordMagnitude (-98765432#32) = { h := 1#8, dm := 952#16, sc := 5925#16 } ∧
    coordSignedTrunc (-98765432#32) = { h := 1#8, dm := 0xFC48#16, sc := 0xE8DB#16 } := by decide

/-- V12: both ends of the altitude's range. -/
theorem test_altitude_ends :
    altCode Config.default 0x7FFFFFFF#32 = 0xCEC0#16 ∧ altCode Config.default 0x80000000#32 = 0x3528#16 := by
  decide

/-! ### The step -/

/-- V64: a reserved opcode. -/
theorem test_step_reserved_opcode :
    after (step (withWord 0xFF#8 0x12345678#32 State.reset)) (fun t =>
      decide (t.results = [0x0200000001#40] ∧
        t.trace = [{ name := .fault, a := 1#8, b := 0xFF#8, t := 0#32 }])) = true := by decide

/-- A row presented at the bench port is the next instruction run. -/
theorem test_with_fetch_word :
    after (step (State.reset.withFetchWord 16 0x808E)) (fun t => decide (t.curFrame = .eam)) = true := by decide

/-! ### Witnesses: the hypotheses of each statement, met together -/

theorem witness_DecodeEncodeAgree :
    ([.init 7#32, .acquire 0#32, .release 0#32, .tick 0xFFFFFFFF#32, .queryBaud 0#32, .obsRead 0xFFFF#32,
      .reqGps, .reqEam, .reqBinOther 0xFF#8, .reqOther 0x7F#8 0x8A#8, .respGps, .respEam, .refresh, .detect,
      .beginSend .eam, .advance, .switchTx, .switchRx, .discardRx .endOfSend] : List Instr).all
      (wellFormed Config.default) = true := by decide

theorem witness_DecodeAcceptsOnlyEncodings :
    decode Config.default (hostWord 0x06#8 0xFFFF#32) = .ok (.obsRead 0xFFFF#32) := by decide

theorem witness_StepRunsTheDecodedInstruction :
    configLegal (withWord 0x04#8 9#32 listening).cfg = true ∧
    (withWord 0x04#8 9#32 listening).inputs = .code (hostWord 0x04#8 9#32) :: [] ∧
    decode Config.default (hostWord 0x04#8 9#32) = .ok (.tick 9#32) := by decide

/-- Each clause at a boundary: opcodes 0x00, 0x07 and 0xFF, operand 1, index bit 16. -/
theorem witness_IllegalCommandWordRaisesFault :
    configLegal State.reset.cfg = true ∧ State.reset.fault = 0#8 ∧
    (0x07#8 ≤ 0x07#8 ∧ 0x07#8 ≤ 0xFF#8) ∧ 1#32 ≠ 0#32 ∧ 0xFFFF#32 < 0x10000#32 := by decide

theorem witness_OneResultPerCommandWord :
    (∃ t, step (withWord 0x05#8 0#32 State.reset) = .next t) ∧
    ∃ t, step { State.reset with inputs := [.agent (.wire [1#8])] } = .next t := ⟨⟨_, rfl⟩, _, rfl⟩

theorem witness_TraceIsAppendOnly :
    (∃ t, step (withWord 0x04#8 0#32 State.reset) = .next t) ∧
    resetNext (withWord 0x04#8 0#32 State.reset) = false := ⟨⟨_, rfl⟩, rfl⟩

/-- A legal and an illegal index, QUERY_BAUD and a reserved opcode, at a faulted block. -/
theorem witness_FaultedBlockAnswersWithoutEffect :
    configLegal faulted.cfg = true ∧ faulted.fault ≠ 0#8 ∧ (0xFFFF#32 ≤ 0xFFFF#32) ∧
    observe faulted 1 = some 7#32 ∧ observe faulted 9 = none := by decide

theorem witness_OnlyResetLeavesTheFaultState :
    faulted.fault ≠ 0#8 ∧ (∃ t, step (withWord 0x04#8 0#32 faulted) = .next t) ∧
    resetNext (withWord 0x04#8 0#32 faulted) = false ∧
    (∃ t, step { faulted with inputs := [.reset] } = .next t) ∧
    resetNext { faulted with inputs := [.reset] } = true := ⟨by decide, ⟨_, rfl⟩, rfl, ⟨_, rfl⟩, rfl⟩

theorem witness_InitWhileAcquiredFaults : listening.fault = 0#8 ∧ listening.portAcquired = true := by decide

theorem witness_TickNeedsInitAndAcquire :
    State.reset.fault = 0#8 ∧ State.reset.initDone = false ∧ inited.fault = 0#8 ∧ inited.initDone = true ∧
    inited.portAcquired = false := by decide

theorem witness_AcquireAndReleasePreconditions :
    State.reset.initDone = false ∧ (listening.initDone = true ∧ listening.portAcquired = true) ∧
    State.reset.portAcquired = false ∧
    ((sending 1#8 0#8).portAcquired = true ∧ (sending 1#8 0#8).sendActive = true) ∧
    State.reset.fault = 0#8 ∧ listening.fault = 0#8 ∧ (sending 1#8 0#8).fault = 0#8 := by decide

/-- A fault that calls no provider (V61) and the one that does (V52). -/
theorem witness_FaultingCommandChangesOnlyFaultAndTrace :
    (∃ t, step (withWord 0x04#8 0#32 State.reset) = .next t ∧ t.fault = 0x02#8) ∧
    ∃ t, step (withWord 0x02#8 0#32 { inited with
      provider := { Provider.initial with openReply := { handle := 0#32, mode := none, baud := none } } }) =
        .next t ∧ t.fault = 0x05#8 := ⟨⟨_, rfl, rfl⟩, _, rfl, rfl⟩

theorem witness_ResetClearsTheBlockOnly :
    configLegal faulted.cfg = true ∧ ({ faulted with inputs := [.reset] } : State).inputs = .reset :: [] := by
  decide

/-- With the boundary indices 0x0008 and, in each buffer, offset 43. -/
theorem witness_AnswersAfterReset :
    (∃ r, step { faulted with inputs := [.reset] } = .next r) ∧ 8#32 ≤ 0x0008#32 ∧
    43#8 < frameLen Config.default (bufKind (.frame .gps)) ∧
    43#8 < frameLen Config.default (bufKind (.next .eam)) := ⟨⟨_, rfl⟩, by decide⟩

/-- With a payload offset, a constant offset and an offset past the frame. -/
theorem witness_InitWritesHeadersAndClearsPayload :
    configLegal inited.cfg = true ∧ inited.fault = 0#8 ∧ inited.portAcquired = false ∧
    42#8 < frameLen inited.cfg .gps ∧ constantOffset inited.cfg .gps 42#8 = false ∧
    constantOffset inited.cfg .gps 43#8 = true ∧ frameLen inited.cfg .gps ≤ 44#8 := by decide

theorem witness_AcquireTakesAFoundPort :
    shared.fault = 0#8 ∧ shared.initDone = true ∧ shared.portAcquired = false ∧
    foundPort shared.cfg.functionTag shared.provider = some sharedPort := by decide

theorem witness_AcquireOpensAPort :
    inited.fault = 0#8 ∧ inited.initDone = true ∧ inited.portAcquired = false ∧
    foundPort inited.cfg.functionTag inited.provider = none ∧
    inited.provider.openReply.handle ≠ 0#32 := by decide

/-- `inited` with a provider that cannot open a port (V52). -/
def refusing : State :=
  { inited with provider := { Provider.initial with openReply := { handle := 0#32, mode := none, baud := none } } }

theorem witness_AcquireFailureFaults :
    refusing.fault = 0#8 ∧ refusing.initDone = true ∧ refusing.portAcquired = false ∧
    foundPort refusing.cfg.functionTag refusing.provider = none ∧
    refusing.provider.openReply.handle = 0#32 := by decide

theorem witness_ReleaseRestoresThePort :
    listening.fault = 0#8 ∧ listening.portAcquired = true ∧ listening.sendActive = false := by decide

theorem witness_AcquireThenReleaseRestoresTheFoundPort :
    shared.fault = 0#8 ∧ shared.initDone = true ∧ shared.portAcquired = false ∧ shared.sendActive = false ∧
    foundPort shared.cfg.functionTag shared.provider = some sharedPort ∧
    (∀ q ∈ shared.provider.ports, q.handle = sharedPort.handle → q = sharedPort) := by decide

/-- The named port is listed, with a tag to add and one to remove; a provider that opens a port and one that
cannot; a tag with a port and one without. -/
theorem witness_PortCallsChangeTheNamedPortOnly :
    (∃ q ∈ shared.provider.ports, q.handle = 3#32 ∧ 5#32 ∉ q.tags ∧ 1#32 ∈ q.tags) ∧
    refusing.provider.openReply.handle = 0#32 ∧ inited.provider.openReply.handle ≠ 0#32 ∧
    foundPort 1#32 shared.provider = some sharedPort ∧ foundPort 2#32 shared.provider = none := by decide

/-- A port of another function is listed under the handle that OpenPort answers: the opened port takes its
place (42 R152, log 15). -/
theorem test_acquire_open_replaces_the_handle :
    after (exec (.acquire 0#32) { inited with provider := { Provider.initial with
        ports := [{ handle := 7#32, mode := .tx, baud := 9600#32, tags := [9#32] }]
        openReply := { handle := 7#32, mode := none, baud := none } } })
      (fun t => decide (t.portHandle = 7#32 ∧
        t.provider.ports = [{ handle := 7#32, mode := .rx, baud := 19200#32, tags := [1#32] }])) = true := by
  decide

/-- Indices 9 and 0xFFFF, the last index of each buffer and the first past it. -/
theorem witness_ObsReadAnswersTableO :
    inited.fault = 0#8 ∧ 43#8 < frameLen inited.cfg (bufKind (.frame .gps)) ∧
    43#8 < frameLen inited.cfg (bufKind (.next .eam)) ∧
    (8 < 9 ∧ 9 ≤ 0xFFFF ∧ ¬ (0x0100 ≤ 9)) ∧
    (8 < 0x042C ∧ 0x042C ≤ 0xFFFF ∧ ¬ (0x0400 ≤ 0x042C ∧ 0x042C < 0x0400 + inited.cfg.eamLen.toNat)) := by
  decide

/-- A sending and an idle state. -/
theorem witness_TickRunsItsFourSteps :
    configLegal (sending 1#8 0#8).cfg = true ∧ (sending 1#8 0#8).fault = 0#8 ∧
    (sending 1#8 0#8).initDone = true ∧ (sending 1#8 0#8).portAcquired = true ∧
    cursorInFrame (sending 1#8 0#8) ∧ cursorInFrame (sending 2#8 0#8) ∧ cursorInFrame armed :=
  ⟨by decide, by decide, by decide, by decide, fun _ => by decide, fun _ => by decide, nofun⟩

theorem witness_NoFaultInsideATick :
    (∃ t, exec .advance (sending 2#8 0#8) = .next t) ∧
    configLegal armed.cfg = true ∧ armed.fault = 0#8 ∧ armed.initDone = true ∧ armed.portAcquired = true ∧
    cursorInFrame armed := ⟨⟨_, rfl⟩, by decide, by decide, by decide, by decide, nofun⟩

/-- A tick during a send that goes on, and the tick that ends one. -/
theorem witness_SendingTickReadsNoRequest :
    (sending 2#8 0#8).sendActive = true ∧
    after (exec (.tick 8000#32) (sending 2#8 0#8)) (fun t => t.sendActive) = true ∧
    after (exec (.tick 8000#32) (sending 1#8 0#8)) (fun t => !t.sendActive) = true := by decide

/-- Both kinds, at the exact settle time (R178). -/
theorem witness_SettledRequestStartsItsSend :
    configLegal armed.cfg = true ∧ armed.fault = 0#8 ∧ armed.initDone = true ∧ armed.portAcquired = true ∧
    armed.sendActive = false ∧ armed.winArmed = true ∧
    armed.provider.rxFifo = [armed.cfg.binaryModeId, pollAddress armed.cfg .gps] ∧
    ({ armed with provider := { armed.provider with rxFifo := [0x80#8, 0x8E#8] } } : State).provider.rxFifo =
      [armed.cfg.binaryModeId, pollAddress armed.cfg .eam] ∧
    armed.cfg.settleUs ≤ 5000#32 - armed.winT0 ∧
    5000#32 - armed.tLastRefresh < armed.cfg.refreshIntervalUs := by decide

/-- A poll and an ignored pair. -/
theorem witness_ConsumptionRunsTheRequestRow :
    armed.sendActive = false ∧ armed.winArmed = true ∧ armed.provider.rxFifo = [0x80#8, 0x8A#8] ∧
    armed.cfg.settleUs ≤ ({ armed with now := 5000#32 } : State).now - armed.winT0 ∧
    classify armed.cfg 0x80#8 0x8A#8 = some .gps ∧ classify armed.cfg 0x80#8 0x99#8 = none := by decide

/-- `GATE` with the EAM frame being sent: GPS may be written, EAM may not. -/
theorem witness_RefreshWritesTablesGAndE :
    mayRefresh (sending 2#8 0#8) .gps ∧ ¬ mayRefresh (sending 2#8 0#8) .eam := by
  unfold mayRefresh
  decide

theorem witness_ResponseRowsComposeTheirFrame :
    (FrameKind.gps = .gps ∧ Instr.respGps = .respGps) ∧ bufKind (.frame .gps) = .gps ∧
    mayRefresh (sending 2#8 0#8) .gps ∧ ¬ mayRefresh (sending 2#8 0#8) .eam := by
  unfold mayRefresh
  decide

theorem witness_RefreshKeepsHeadersAndStop :
    configLegal framed.cfg = true ∧ constantOffset framed.cfg .gps 0#8 = true ∧
    constantOffset framed.cfg .eam 2#8 = true ∧ constantOffset framed.cfg .eam 43#8 = true := by decide

/-- The boundary counts 4 and 5. -/
theorem witness_FixCharacterFollowsFixAndCount :
    Snapshot.zero.fix = false ∧ flying.fix = true ∧ 5#8 ≤ ({ flying with numSat := 5#8 } : Snapshot).numSat ∧
    ({ flying with numSat := 4#8 } : Snapshot).numSat < 5#8 := by decide

theorem witness_CoordSignModesCompared : 0 ≤ (0#32).toInt ∧ (0xFFFFFFFF#32).toInt < 0 := by decide

theorem witness_SpeedCodeNeverWraps :
    99#16 < 100#16 ∧ flying.fix = true ∧ Config.default.gpsNofixHold = false := by decide

/-- Each side of 0, and the rule's corner cases. -/
theorem witness_AltitudeCodeTruncatesAndWraps :
    0 ≤ (0#32).toInt ∧ (0xFFFFFFFF#32).toInt < 0 ∧ Config.default.altOffset = 500#16 ∧
    (BitVec.ofInt 32 (-5010)).toInt = -5010 ∧ (BitVec.ofInt 32 650360).toInt = 650360 ∧ flying.fix = true := by
  decide

theorem witness_DetectWaitsForTwoBytes :
    (waiting [0x80#8]).sendActive = false ∧ (waiting [0x80#8]).provider.rxFifo.length < 2 := by decide

theorem witness_DetectDiscardsNoise :
    (waiting [1#8, 2#8, 3#8]).sendActive = false ∧ 2 < (waiting [1#8, 2#8, 3#8]).provider.rxFifo.length := by
  decide

theorem witness_DetectArmsTheWindow :
    (waiting [1#8, 2#8]).sendActive = false ∧ (waiting [1#8, 2#8]).provider.rxFifo.length = 2 ∧
    (waiting [1#8, 2#8]).winArmed = false := by decide

/-- One microsecond before the settle time (V30a). -/
theorem witness_DetectWaitsForTheSettleTime :
    armed.sendActive = false ∧ armed.provider.rxFifo.length = 2 ∧ armed.winArmed = true ∧
    ({ armed with now := 4999#32 } : State).now - armed.winT0 < armed.cfg.settleUs := by decide

/-- At the settle time (V30). -/
theorem witness_DetectConsumesASettledRequest :
    armed.sendActive = false ∧ armed.provider.rxFifo = [0x80#8, 0x8A#8] ∧ armed.winArmed = true ∧
    armed.cfg.settleUs ≤ ({ armed with now := 5000#32 } : State).now - armed.winT0 := by decide

theorem witness_BeginSendCreatesTheCursor :
    listening.sendActive = false ∧
    (Instr.beginSend .eam = .beginSend .eam ∧ (FrameKind.gps = .gps ∧ Instr.reqGps = .reqGps)) := by decide

theorem witness_BeginSendIsRejectedDuringASend :
    (sending 45#8 0#8).sendActive = true ∧ ∃ t, exec (.tick 9000#32) armed = .next t := ⟨rfl, _, rfl⟩

/-- The last stored byte and the checksum. -/
theorem witness_AdvanceSendsOneByteOrTheChecksum :
    (sending 2#8 0#8).sendActive = true ∧ 2#8 ≤ (sending 2#8 0#8).curRemaining ∧
    (sending 2#8 0#8).curOffset < frameLen (sending 2#8 0#8).cfg (sending 2#8 0#8).curFrame ∧
    (sending 1#8 0#8).sendActive = true ∧ (sending 1#8 0#8).curRemaining = 1#8 := by decide

/-- Each clause: a send, no send, and the two kinds of cursor that no run reaches. -/
theorem witness_SubOperationsOutsideTheirCondition :
    (sending 2#8 0#8).sendActive = true ∧ listening.sendActive = false ∧
    (sending 0#8 0#8).curRemaining = 0#8 ∧
    (({ sending 2#8 0#8 with curOffset := 44#8 } : State).curRemaining ≠ 1#8 ∧
      frameLen Config.default .eam ≤ ({ sending 2#8 0#8 with curOffset := 44#8 } : State).curOffset) := by decide

/-- A FIFO one byte short of full, and a full one. -/
theorem witness_WireFillsTheFifoToItsCapacity :
    configLegal listening.cfg = true ∧
    ({ waiting (List.replicate 256 0#8) with inputs := [.agent (.wire [1#8])] } : State).inputs =
      .agent (.wire [1#8]) :: [] ∧
    (waiting (List.replicate 255 0#8)).provider.rxFifo.length ≤ listening.cfg.rxFifoCapacity ∧
    (waiting (List.replicate 256 0#8)).provider.rxFifo.length ≤ listening.cfg.rxFifoCapacity :=
  ⟨by decide, rfl, (List.length_replicate (n := 255)).le.trans (by decide),
    (List.length_replicate (n := 256)).le.trans (by decide)⟩

/-- The session invariant holds while a send is active, with `x` waiting at the host interface. -/
theorem sessionInv_sending (n c : Byte) (x : List Input) (h1 : 1 ≤ n.toNat) (h2 : n.toNat ≤ 45)
    (hx : x.all hardwareInput = true) : SessionInv { sending n c with inputs := x } where
  legal := (by decide : configLegal Config.default = true)
  bench := hx
  faultCode := (by decide : 0#8 ≤ 0x07#8)
  heldInit := fun _ => rfl
  sendHeld := fun _ => rfl
  sendTx := fun _ => rfl
  idleRx := nofun
  sendDisarmed := fun _ => rfl
  cursorCount := fun _ => by
    show (45#8 - n).toNat + n.toNat = 45
    bv_omega
  cursorLeft := fun _ => h1
  cursorClear := nofun
  armedHeld := nofun
  armedPair := nofun
  fifoBound := Nat.zero_le _

/-- The session invariant holds over an armed window. -/
theorem sessionInv_armed (x : List Input) (hx : x.all hardwareInput = true) :
    SessionInv { armed with inputs := x } where
  legal := (by decide : configLegal Config.default = true)
  bench := hx
  faultCode := (by decide : 0#8 ≤ 0x07#8)
  heldInit := fun _ => rfl
  sendHeld := nofun
  sendTx := nofun
  idleRx := fun _ _ => rfl
  sendDisarmed := nofun
  cursorCount := nofun
  cursorLeft := nofun
  cursorClear := fun _ => ⟨rfl, rfl, rfl, rfl⟩
  armedHeld := fun _ => rfl
  armedPair := fun _ => Nat.le_refl 2
  fifoBound := (by decide : 2 ≤ 256)

/-- A word that is neither ACQUIRE nor RELEASE: in a tick that writes a byte, in one that begins a send and in
one that ends a send. -/
theorem witness_PortIsChangedOnlyByTheArbiter :
    SessionInv (withWord 0x04#8 8000#32 (sending 2#8 0#8)) ∧
    (withWord 0x04#8 8000#32 (sending 2#8 0#8)).inputs = .code (hostWord 0x04#8 8000#32) :: [] ∧
    (∃ t, step (withWord 0x04#8 8000#32 (sending 2#8 0#8)) = .next t) ∧
    SessionInv (withWord 0x04#8 5000#32 armed) ∧
    (∃ t, step (withWord 0x04#8 5000#32 armed) = .next t ∧ t.provider.calls = [.setMode .tx]) ∧
    SessionInv (withWord 0x04#8 8000#32 (sending 1#8 0#8)) ∧
    (∃ t, step (withWord 0x04#8 8000#32 (sending 1#8 0#8)) = .next t ∧ t.provider.calls = [.setMode .rx]) ∧
    0x04#8 ≠ 0x02#8 ∧ 0x04#8 ≠ 0x03#8 :=
  ⟨sessionInv_sending _ _ _ (by decide) (by decide) rfl, rfl, ⟨_, rfl⟩, sessionInv_armed _ rfl, ⟨_, rfl, rfl⟩,
    sessionInv_sending _ _ _ (by decide) (by decide) rfl, ⟨_, rfl, rfl⟩, by decide, by decide⟩

/-- INIT, a tick that begins a send, one that writes a byte, and a command that leaves `T_LAST_TX`. -/
theorem witness_SendTimeIsWrittenOnlyBySendsAndInit :
    (withWord 0x01#8 0#32 State.reset).inputs = .code (hostWord 0x01#8 0#32) :: [] ∧
    (∃ t, step (withWord 0x01#8 0#32 State.reset) = .next t) ∧
    (∃ t, step (withWord 0x04#8 5000#32 armed) = .next t ∧ armed.sendActive ≠ t.sendActive) ∧
    (∃ t, step (withWord 0x04#8 8000#32 (sending 2#8 0#8)) = .next t ∧
      t.provider.tx ≠ (sending 2#8 0#8).provider.tx) ∧
    (∃ t, step (withWord 0x05#8 0#32 (sending 2#8 0#8)) = .next t) :=
  ⟨rfl, ⟨_, rfl⟩, ⟨_, rfl, by decide⟩, ⟨_, rfl, by decide⟩, _, rfl⟩

theorem witness_EveryStepKeepsTheSession :
    SessionInv (withWord 0x04#8 5000#32 armed) ∧
    ∃ t, step (withWord 0x04#8 5000#32 armed) = .next t ∧ t.sendActive = true :=
  ⟨sessionInv_armed _ rfl, _, rfl, rfl⟩

/-- INIT of a block in reset, from which every header is written. -/
theorem witness_EveryStepKeepsTheFrames :
    FrameInv (withWord 0x01#8 0#32 State.reset) ∧
    ∃ t, step (withWord 0x01#8 0#32 State.reset) = .next t ∧ t.initDone = true :=
  ⟨⟨rfl, nofun, fun _ _ _ _ => rfl⟩, _, rfl, rfl⟩

theorem witness_EveryStepKeepsTheChecksum :
    SessionInv { sending 45#8 0#8 with inputs := [.code (hostWord 0x04#8 8000#32)] } ∧
    ChecksumInv { sending 45#8 0#8 with inputs := [.code (hostWord 0x04#8 8000#32)] } ∧
    ∃ t, step { sending 45#8 0#8 with inputs := [.code (hostWord 0x04#8 8000#32)] } = .next t :=
  ⟨sessionInv_sending _ _ _ (by decide) (by decide) rfl, ⟨fun _ => by decide, fun _ => by decide⟩, _, rfl⟩

theorem witness_NoStepStopsInASession :
    SessionInv { sending 1#8 0#8 with inputs := [.code (hostWord 0x04#8 8000#32), .reset] } :=
  sessionInv_sending _ _ _ (by decide) (by decide) rfl

theorem witness_PhaseChangesOnlyAsListed :
    SessionInv (withWord 0x03#8 0#32 armed) ∧ (∃ t, step (withWord 0x03#8 0#32 armed) = .next t) ∧
    resetNext (withWord 0x03#8 0#32 armed) = false := ⟨sessionInv_armed _ rfl, ⟨_, rfl⟩, rfl⟩

/-- The tick that ends a send, and a reset that ends one. -/
theorem witness_OnlyTheChecksumOrResetEndsASend :
    SessionInv (withWord 0x04#8 8000#32 (sending 1#8 0#8)) ∧
    (∃ t, step (withWord 0x04#8 8000#32 (sending 1#8 0#8)) = .next t ∧ t.sendActive = false) ∧
    SessionInv { sending 1#8 0#8 with inputs := [.reset] } ∧
    ∃ t, step { sending 1#8 0#8 with inputs := [.reset] } = .next t ∧ t.sendActive = false :=
  ⟨sessionInv_sending _ _ _ (by decide) (by decide) rfl, ⟨_, rfl, rfl⟩,
    sessionInv_sending _ _ _ (by decide) (by decide) rfl, _, rfl, rfl⟩

/-- Two bytes left, two ticks exactly `INTER_BYTE_US` apart. -/
theorem witness_SpacedTicksCompleteTheSend :
    SessionInv { sending 2#8 0#8 with inputs := tickInputs [8000#32, 11000#32] ++ [.reset] } ∧
    (sending 2#8 0#8).fault = 0#8 ∧ (sending 2#8 0#8).sendActive = true ∧
    (sending 2#8 0#8).cfg.refreshPolicy ≠ .literal ∧
    [8000#32, 11000#32].length = (sending 2#8 0#8).curRemaining.toNat ∧
    spacedTicks (sending 2#8 0#8).cfg.interByteUs (sending 2#8 0#8).tLastTx [8000#32, 11000#32] = true :=
  ⟨sessionInv_sending _ _ _ (by decide) (by decide) rfl, by decide, by decide, by decide, by decide, by decide⟩

end Sys2Proof.Tests
end

section
/-! PROOFS. The encoding family: decode and encode agree in both directions (spec/30_encoding.md Tables H,
Q, R2 and U). Each format has one lemma that says its decoder accepts only encodings. -/

namespace Sys2Proof

/-! ### Host command words (Table H) -/

/-- The command Table H gives an opcode is encoded with that opcode. -/
theorem encode_of_hostCommand (cfg : Config) {opcode : Byte} {op : Word32} {i : Instr}
    (h : hostCommand opcode op = some i) : encode cfg i = hostWord opcode op := by
  unfold hostCommand at h
  split_ifs at h <;> cases h <;> subst opcode <;> rfl

/-- The decoder accepts a command word only as the legal command of its opcode and operand (R80 to R82). -/
theorem decode_host_accepts (cfg : Config) (w : Word40) (i : Instr) (h : decode cfg (.host w) = .ok i) :
    wellFormed cfg i = true ∧ encode cfg i = .host w := by
  have hcommand := Machine.decode_host_mem cfg w i (.inl h)
  rw [Machine.hostWord_eta] at h ⊢
  simp only [decode_hostWord, hcommand] at h
  split_ifs at h with hwf
  exact ⟨hwf, encode_of_hostCommand cfg hcommand⟩

/-! ### Requests (Table Q) -/

/-- Every request is a request frame of its two bytes (R83). -/
theorem requestWord_eta (w : BitVec 16) :
    (.request w : Code) = requestWord (w.extractLsb' 8 8) (w.extractLsb' 0 8) := by
  unfold requestWord
  rw [Machine.rejoin16]

/-- The row of Table Q that two bytes match first is not shadowed by an earlier one, and stands for those
two bytes (R83). -/
theorem decodeRequest_accepts (cfg : Config) (requestId address : Byte) :
    wellFormed cfg (decodeRequest cfg requestId address) = true ∧
      encode cfg (decodeRequest cfg requestId address) = requestWord requestId address := by
  unfold decodeRequest
  split_ifs with hid hgps heam
  · subst hid hgps
    exact ⟨rfl, rfl⟩
  · subst hid heam
    exact ⟨by simpa [wellFormed] using hgps, rfl⟩
  · subst hid
    exact ⟨by simp [wellFormed, hgps, heam], rfl⟩
  · exact ⟨by simpa [wellFormed] using hid, rfl⟩

theorem decode_request_accepts (cfg : Config) (w : BitVec 16) (i : Instr)
    (h : decode cfg (.request w) = .ok i) :
    wellFormed cfg i = true ∧ encode cfg i = .request w := by
  rw [requestWord_eta] at h ⊢
  rw [decode_requestWord] at h
  cases h
  exact decodeRequest_accepts cfg _ _

/-! ### Response headers (Table R2) -/

/-- The Battery/EAM row has an encoding of its own when the two response headers differ (log 29). -/
theorem wellFormed_respEam_of_ne (cfg : Config)
    (h : responseHeader cfg .eam ≠ responseHeader cfg .gps) : wellFormed cfg .respEam = true := by
  by_contra hwf
  obtain ⟨hclass, htext⟩ : cfg.eamClassId = cfg.gpsClassId ∧
      (cfg.headerOrder = .doc → cfg.eamTextId = cfg.gpsTextId) := by simpa [wellFormed] using hwf
  apply h
  cases horder : cfg.headerOrder with
  | doc => simp [responseHeader, hclass, horder, htext horder]
  | hott => simp [responseHeader, hclass, horder]

theorem decode_response_accepts (cfg : Config) (w : BitVec 24) (i : Instr)
    (h : decode cfg (.response w) = .ok i) :
    wellFormed cfg i = true ∧ encode cfg i = .response w := by
  simp only [decode, decodeResponse] at h
  split_ifs at h with hgps heam <;> cases h
  · exact ⟨rfl, congrArg Code.response hgps.symm⟩
  · exact ⟨wellFormed_respEam_of_ne cfg (heam ▸ hgps), congrArg Code.response heam.symm⟩

/-! ### Sub-operations (Table U) -/

theorem bitOfKind_kindOfBit (b : BitVec 1) : bitOfKind (kindOfBit b) = b := by
  revert b
  decide

theorem bitOfReason_reasonOfBit (b : BitVec 1) : bitOfReason (reasonOfBit b) = b := by
  revert b
  decide

/-- A sub-operation without operand is accepted with operand bit 0 only, the bit it is encoded with
(log 5). -/
theorem plainSubop_accepts (cfg : Config) {number : BitVec 4} {arg : BitVec 1} {i j : Instr}
    (hwf : wellFormed cfg i = true) (hcode : encode cfg i = .subop number 0#1)
    (h : plainSubop number arg i = .ok j) :
    wellFormed cfg j = true ∧ encode cfg j = .subop number arg := by
  unfold plainSubop at h
  split_ifs at h with harg
  cases h
  subst harg
  exact ⟨hwf, hcode⟩

theorem decode_subop_accepts (cfg : Config) (number : BitVec 4) (arg : BitVec 1) (i : Instr)
    (h : decode cfg (.subop number arg) = .ok i) :
    wellFormed cfg i = true ∧ encode cfg i = .subop number arg := by
  simp only [decode, decodeSubop] at h
  split_ifs at h <;> subst number
  · exact plainSubop_accepts cfg rfl rfl h
  · exact plainSubop_accepts cfg rfl rfl h
  · cases h
    exact ⟨rfl, congrArg (Code.subop 2#4) (bitOfKind_kindOfBit arg)⟩
  · exact plainSubop_accepts cfg rfl rfl h
  · exact plainSubop_accepts cfg rfl rfl h
  · exact plainSubop_accepts cfg rfl rfl h
  · cases h
    exact ⟨rfl, congrArg (Code.subop 6#4) (bitOfReason_reasonOfBit arg)⟩

/-! ### The obligations -/

/-- Settles O1: one law for each row of the opcode table. -/
theorem decodeEncodeAgree : Obligations.DecodeEncodeAgree := by
  intro i
  cases i with
  | init c => exact Laws.DecodeEncode.init c
  | acquire op => exact Laws.DecodeEncode.acquire op
  | release op => exact Laws.DecodeEncode.release op
  | tick now => exact Laws.DecodeEncode.tick now
  | queryBaud op => exact Laws.DecodeEncode.queryBaud op
  | obsRead op => exact Laws.DecodeEncode.obsRead op
  | reqGps => exact Laws.DecodeEncode.reqGps
  | reqEam => exact Laws.DecodeEncode.reqEam
  | reqBinOther address => exact Laws.DecodeEncode.reqBinOther address
  | reqOther requestId address => exact Laws.DecodeEncode.reqOther requestId address
  | respGps => exact Laws.DecodeEncode.respGps
  | respEam => exact Laws.DecodeEncode.respEam
  | refresh => exact Laws.DecodeEncode.refresh
  | detect => exact Laws.DecodeEncode.detect
  | beginSend k => exact Laws.DecodeEncode.beginSend k
  | advance => exact Laws.DecodeEncode.advance
  | switchTx => exact Laws.DecodeEncode.switchTx
  | switchRx => exact Laws.DecodeEncode.switchRx
  | discardRx reason => exact Laws.DecodeEncode.discardRx reason

/-- Settles O2, by the format of the code. -/
theorem decodeAcceptsOnlyEncodings : Obligations.DecodeAcceptsOnlyEncodings := by
  intro cfg c i h
  cases c with
  | host w => exact decode_host_accepts cfg w i h
  | request w => exact decode_request_accepts cfg w i h
  | response w => exact decode_response_accepts cfg w i h
  | subop number arg => exact decode_subop_accepts cfg number arg i h

/-- Settles O3: ten closed words, evaluated. -/
theorem sampleWordsDecode : Obligations.SampleWordsDecode := by
  unfold Obligations.SampleWordsDecode
  decide

end Sys2Proof
end

section
/-! PROOFS. The memory family: the receive FIFO as the other agents fill it (R62 to R69). -/

namespace Sys2Proof

open Sys2Proof.Machine

/-! ### Steps of other agents -/

/-- A step at another agent's act is that act, once the input is taken (R7). -/
theorem step_agent {s : State} {a : AgentAct} {rest : List Input} (hlegal : configLegal s.cfg = true)
    (hinputs : s.inputs = .agent a :: rest) : step s = .next (applyAgent a { s with inputs := rest }) := by
  simp [step, hlegal, hinputs]

/-- Bytes on the wire change the FIFO only, which takes them in order up to its capacity (R69). -/
theorem applyAgent_wire {s : State} (bytes : List Byte)
    (hbound : s.provider.rxFifo.length ≤ s.cfg.rxFifoCapacity) :
    applyAgent (.wire bytes) s = { s with
      provider := { s.provider with
        rxFifo := (s.provider.rxFifo ++ bytes).take s.cfg.rxFifoCapacity } } := by
  rw [← receiveBytes_eq s.cfg.rxFifoCapacity bytes s.provider.rxFifo hbound]
  rfl

/-! ### The obligation -/

/-- Settles O50: the step is the wire's act, whose FIFO `receiveBytes_eq` gives by induction on the bytes. -/
theorem wireFillsTheFifoToItsCapacity : Obligations.WireFillsTheFifoToItsCapacity := by
  intro s bytes rest hlegal hinputs hbound
  rw [step_agent hlegal hinputs, applyAgent_wire (s := { s with inputs := rest }) bytes hbound]

end Sys2Proof
end

section
/-! PROOFS. The illegal command words of the encoding family: a reserved opcode, or a bit set that Table H
says must be 0 (R82). One lemma for each command says what it does with an illegal operand. -/

namespace Sys2Proof

open Sys2Proof.Machine

/-! ### The check each command makes of its operand -/

/-- Outside the fault state a reserved opcode raises `ILLEGAL_COMMAND` (R82). -/
theorem reservedCommand_of_unfaulted {s : State} (opcode : Byte) (hfault : s.fault = 0#8) :
    reservedCommand opcode s = afterFault 0x01#8 opcode 0#32 s := by
  rw [reservedCommand, if_neg (not_not_intro hfault), raiseFault_after]
  rfl

/-- ACQUIRE tests its operand before any other check of its own (R150, R245). -/
theorem exec_acquire_illegal {s : State} {op : Word32} (hfault : s.fault = 0#8) (hop : op ≠ 0#32) :
    exec (.acquire op) s = .next (afterFault 0x01#8 0x02#8 0#32 s) := by
  change execAcquire op s = _
  rw [execAcquire, if_neg (not_not_intro hfault), if_pos hop, raiseFault_after]
  rfl

/-- RELEASE tests its operand before any other check of its own (R154, R245). -/
theorem exec_release_illegal {s : State} {op : Word32} (hfault : s.fault = 0#8) (hop : op ≠ 0#32) :
    exec (.release op) s = .next (afterFault 0x01#8 0x03#8 0#32 s) := by
  change execRelease op s = _
  rw [execRelease, if_neg (not_not_intro hfault), if_pos hop, raiseFault_after]
  rfl

/-- QUERY_BAUD tests its operand before it answers (R218). -/
theorem exec_queryBaud_illegal {s : State} {op : Word32} (hfault : s.fault = 0#8) (hop : op ≠ 0#32) :
    exec (.queryBaud op) s = .next (afterFault 0x01#8 0x05#8 0#32 s) := by
  change execQueryBaud op s = _
  rw [execQueryBaud, if_neg (not_not_intro hfault), if_pos hop, raiseFault_after]
  rfl

/-- OBS_READ tests bits 31:16 before it looks the index up (R219). -/
theorem exec_obsRead_illegal {s : State} {op : Word32} (hfault : s.fault = 0#8) (hop : 0xFFFF#32 < op) :
    exec (.obsRead op) s = .next (afterFault 0x01#8 0x06#8 0#32 s) := by
  have hhigh : op.extractLsb' 16 16 ≠ 0#16 := fun h => BitVec.not_le.mpr hop ((operand_high_zero op).mp h)
  change execObsRead op s = _
  rw [execObsRead, if_pos hhigh, if_neg (not_not_intro hfault), raiseFault_after]
  rfl

/-! ### The obligation -/

/-- Settles O5: `step_host` gives the command of the opcode, whose own check of the operand raises the
fault; a reserved opcode has no command. -/
theorem illegalCommandWordRaisesFault : Obligations.IllegalCommandWordRaisesFault := by
  intro s opcode op rest hlegal hinputs hfault hillegal
  rw [step_host s opcode op rest hlegal hinputs]
  rcases hillegal with hreserved | ⟨rfl | rfl | rfl, hop⟩ | ⟨rfl, hop⟩
  · rw [(hostCommand_none opcode op).mpr hreserved]
    exact congrArg Host.Outcome.next (reservedCommand_of_unfaulted opcode hfault)
  · exact exec_acquire_illegal hfault hop
  · exact exec_release_illegal hfault hop
  · exact exec_queryBaud_illegal hfault hop
  · exact exec_obsRead_illegal hfault hop

end Sys2Proof
end

section
/-! PROOFS. The frame codec family: which bytes a compose leaves alone (R126), and the fix, speed and
altitude fields of the GPS frame (spec/41_frame_codec.md R112, R116, R117). -/

namespace Sys2Proof

open Sys2Proof.Machine

/-! ### A 16-bit field's two bytes -/

theorem lo8_toNat (v : Half) : (lo8 v).toNat = v.toNat % 256 := by
  simp [lo8]

theorem hi8_toNat (v : Half) : (hi8 v).toNat = v.toNat / 256 := by
  have hv := v.isLt
  simp only [hi8, BitVec.toNat_setWidth, BitVec.toNat_ushiftRight, Nat.shiftRight_eq_div_pow]
  omega

/-- The two bytes of a field make the field again (R11). -/
theorem hi8_append_lo8 (v : Half) : (hi8 v ++ lo8 v : BitVec 16) = v := by
  apply BitVec.eq_of_toNat_eq
  rw [BitVec.toNat_append, ← Nat.shiftLeft_add_eq_or_of_lt (lo8 v).isLt, Nat.shiftLeft_eq, hi8_toNat,
    lo8_toNat]
  omega

/-! ### The offsets a compose leaves alone -/

/-- ComposeGPS writes offsets 7 to 22 and 26 to 28 only (Table G). -/
theorem rd_composeGps_unwritten (cfg : Config) (b c : Buf) (v : Snapshot) (m : Mem) {j : Byte}
    (hj : payloadOffset .gps j = false) : rd (composeGps cfg b v m) c j = rd m c j := by
  have hne (n : Byte) (hn : payloadOffset .gps n = true) : j ≠ n := fun h => by simp [← h, hj] at hn
  rw [rd_composeGps]
  by_cases hc : c = b
  · subst hc
    simp (disch := decide) only [hne, ne_eq, not_true_eq_false, if_false, ite_self]
  · exact if_pos hc

/-- ComposeEAM writes its two voltage fields and clears the warning and alarm bytes only (Table E). -/
theorem rd_composeEam_unwritten (cfg : Config) (b c : Buf) (v : Snapshot) (m : Mem) {j : Byte}
    (hj : payloadOffset .eam j = false) (hclear : ¬ (j = warnOff cfg ∨ j = 4#8 ∨ j = 5#8)) :
    rd (composeEam cfg b v m) c j = rd m c j := by
  have hne (n : Byte) (hn : payloadOffset .eam n = true) : j ≠ n := fun h => by simp [← h, hj] at hn
  rw [rd_composeEam]
  by_cases hc : c = b
  · subst hc
    simp (disch := decide) only [hclear, hne, ne_eq, not_true_eq_false, if_false, or_self]
  · exact if_pos hc

/-- A header offset is at most 3 and not the warning byte's; the stop byte is the frame's last (R87, R126). -/
theorem constantOffset_cases {cfg : Config} {k : FrameKind} {i : Byte} (hlegal : configLegal cfg = true)
    (hi : constantOffset cfg k i = true) :
    (i.toNat ≤ 3 ∧ i ≠ warnOff cfg) ∨ i.toNat + 1 = (frameLen cfg k).toNat := by
  simp only [constantOffset, Bool.or_eq_true, beq_iff_eq] at hi
  rcases hi with hheader | rfl
  · left
    obtain ⟨htext, hwarn⟩ | ⟨htext, hwarn⟩ := textOff_cases cfg
    all_goals
      rw [htext] at hheader
      rw [hwarn]
      rcases hheader with (rfl | rfl) | rfl <;> decide
  · right
    have hlen := frameLen_bounds cfg hlegal k
    rw [frameLen_pred cfg hlegal k]
    omega

/-- No header or stop offset is one that a refresh writes a value to: the lengths of a legal configuration
leave the stop byte behind the last field (log 11). -/
theorem payloadOffset_of_constantOffset {cfg : Config} {k : FrameKind} {i : Byte}
    (hlegal : configLegal cfg = true) (hi : constantOffset cfg k i = true) : payloadOffset k i = false := by
  obtain ⟨hgps, -, heam, -⟩ := configLegal_lengths cfg hlegal
  have hcases := constantOffset_cases hlegal hi
  cases k
  all_goals
    simp only [frameLen] at hcases
    simp only [payloadOffset, Bool.or_eq_false_iff, decide_eq_false_iff_not, BitVec.le_def,
      BitVec.toNat_ofNat]
    omega

/-- No header or stop offset is the warning byte or an alarm byte, which a refresh clears (R124). -/
theorem not_cleared_of_constantOffset {cfg : Config} {i : Byte} (hlegal : configLegal cfg = true)
    (hi : constantOffset cfg .eam i = true) : ¬ (i = warnOff cfg ∨ i = 4#8 ∨ i = 5#8) := by
  obtain ⟨-, -, heam, -⟩ := configLegal_lengths cfg hlegal
  obtain ⟨hheader, hwarn⟩ | hstop := constantOffset_cases hlegal hi
  · exact not_or.mpr ⟨hwarn, by rintro (rfl | rfl) <;> exact absurd hheader (by decide)⟩
  · intro hclear
    have hle : i.toNat ≤ 5 := by
      obtain ⟨-, hoff⟩ | ⟨-, hoff⟩ := textOff_cases cfg <;> rw [hoff] at hclear <;>
        rcases hclear with rfl | rfl | rfl <;> decide
    simp only [frameLen] at hstop
    omega

/-- A compose of either kind keeps the header and stop bytes of its own frame (R126). -/
theorem rd_compose_constantOffset {cfg : Config} {k : FrameKind} {i : Byte} (b c : Buf) (v : Snapshot)
    (m : Mem) (hlegal : configLegal cfg = true) (hi : constantOffset cfg k i = true) :
    rd (compose cfg k b v m) c i = rd m c i := by
  have hpayload := payloadOffset_of_constantOffset hlegal hi
  cases k with
  | gps => exact rd_composeGps_unwritten cfg b c v m hpayload
  | eam => exact rd_composeEam_unwritten cfg b c v m hpayload (not_cleared_of_constantOffset hlegal hi)

/-- A refresh of kind `k` writes into a buffer of that kind (R110). -/
theorem bufKind_refreshTarget (s : State) (k : FrameKind) : bufKind (refreshTarget s k) = k := by
  rw [refreshTarget_eq]
  split <;> rfl

/-- A refresh of one kind keeps the header and stop bytes of every buffer (R126). -/
theorem rd_refreshKind_constantOffset {s : State} {b : Buf} {i : Byte} (k : FrameKind) (v : Snapshot)
    (hlegal : configLegal s.cfg = true) (hi : constantOffset s.cfg (bufKind b) i = true) :
    rd (refreshKind k v s).mem b i = rd s.mem b i := by
  rw [refreshKind_mem]
  split
  · by_cases hb : b = refreshTarget s k
    · rw [hb, bufKind_refreshTarget] at hi
      exact rd_compose_constantOffset _ _ _ _ hlegal hi
    · exact rd_compose_other _ _ _ _ _ _ _ hb
  · rfl

/-! ### The fields of the GPS frame -/

/-- Offset 27 holds the fix character, with or without a fix (R112, R121). -/
theorem rd_composeGps_fixChar (cfg : Config) (b : Buf) (v : Snapshot) (m : Mem) :
    rd (composeGps cfg b v m) b 27#8 = fixChar cfg v := by
  rw [rd_composeGps]
  simp

/-- A compose that is not held writes the speed code at offsets 7 and 8 (R111, R116). -/
theorem rd_composeGps_speed {cfg : Config} {v : Snapshot} (b : Buf) (m : Mem)
    (hwrites : v.fix = true ∨ cfg.gpsNofixHold = false) :
    rd (composeGps cfg b v m) b 7#8 = lo8 (speedCode v.speed) ∧
      rd (composeGps cfg b v m) b 8#8 = hi8 (speedCode v.speed) := by
  simp only [rd_composeGps]
  rcases hwrites with h | h <;> simp [h]

/-- A compose that is not held writes the altitude code at offsets 21 and 22 (R111, R117). -/
theorem rd_composeGps_alt {cfg : Config} {v : Snapshot} (b : Buf) (m : Mem)
    (hwrites : v.fix = true ∨ cfg.gpsNofixHold = false) :
    rd (composeGps cfg b v m) b 21#8 = lo8 (altCode cfg v.alt) ∧
      rd (composeGps cfg b v m) b 22#8 = hi8 (altCode cfg v.alt) := by
  simp only [rd_composeGps]
  rcases hwrites with h | h <;> simp [h]

/-! ### The conversions -/

/-- The largest speed gives 23580, so 16 bits always hold the product (R116). -/
theorem speedCode_toNat (x : Half) : (speedCode x).toNat = x.toNat / 100 * 36 := by
  have hx := x.isLt
  rw [speedCode, BitVec.toNat_ofNat]
  omega

/-- From 0 on, truncation toward zero divides the magnitude (R117). -/
theorem altCode_of_nonneg (cfg : Config) {a : Word32} (ha : 0 ≤ a.toInt) :
    altCode cfg a = cfg.altOffset + BitVec.ofNat 16 (a.toInt.natAbs / 10) := by
  have hquot : a.toInt.tdiv 10 = ((a.toInt.natAbs / 10 : Nat) : Int) := by
    rw [Int.tdiv_eq_ediv_of_nonneg ha]
    omega
  rw [altCode, hquot, BitVec.ofInt_add, BitVec.ofInt_natCast, BitVec.ofInt_natCast, BitVec.ofNat_toNat,
    BitVec.setWidth_eq, BitVec.add_comm]

/-- Below 0, truncation toward zero subtracts the magnitude's tenth (R117). -/
theorem altCode_of_neg (cfg : Config) {a : Word32} (ha : a.toInt < 0) :
    altCode cfg a = cfg.altOffset - BitVec.ofNat 16 (a.toInt.natAbs / 10) := by
  have hquot : a.toInt.tdiv 10 = -((a.toInt.natAbs / 10 : Nat) : Int) := by
    rw [← neg_neg a.toInt, Int.neg_tdiv, Int.tdiv_eq_ediv_of_nonneg (by omega)]
    omega
  rw [altCode, hquot, BitVec.ofInt_add, BitVec.ofInt_neg, BitVec.ofInt_natCast, BitVec.ofInt_natCast,
    BitVec.ofNat_toNat, BitVec.setWidth_eq, BitVec.add_comm, BitVec.sub_eq_add_neg]

/-! ### The obligations -/

/-- Settles O32: a refresh composes the two kinds in turn, and each compose keeps every header and stop
byte. -/
theorem refreshKeepsHeadersAndStop : Obligations.RefreshKeepsHeadersAndStop := by
  intro s hlegal
  refine ⟨refresh s, rfl, fun b i hi => ?_⟩
  have hcfg : (refreshKind .gps s.snapshot s).cfg = s.cfg := by rw [refreshKind_eq]
  rw [refresh_eq]
  exact (rd_refreshKind_constantOffset .eam _ (hcfg ▸ hlegal) (hcfg ▸ hi)).trans
    (rd_refreshKind_constantOffset .gps _ hlegal hi)

/-- Settles O33, by the three cases of the fix character. -/
theorem fixCharacterFollowsFixAndCount : Obligations.FixCharacterFollowsFixAndCount := by
  intro cfg b v m
  rw [rd_composeGps_fixChar]
  refine ⟨fun hfix => ?_, fun hfix hsat => ?_, fun hfix hsat => ?_⟩
  · simp [fixChar, hfix]
  · simp [fixChar, hfix, sat3dMin, hsat]
  · simp [fixChar, hfix, sat3dMin, BitVec.not_le.mpr hsat]

/-- Settles O36: the code's value gives its bound, its zero range and its two bytes. -/
theorem speedCodeNeverWraps : Obligations.SpeedCodeNeverWraps := by
  refine ⟨fun x => ⟨speedCode_toNat x, ?_, fun hx => ?_⟩, fun cfg b v m hwrites => ?_⟩
  · have hmax := x.isLt
    rw [speedCode_toNat]
    omega
  · have hsmall : x.toNat / 100 = 0 := Nat.div_eq_of_lt hx
    simp [speedCode, hsmall]
  · obtain ⟨hlow, hhigh⟩ := rd_composeGps_speed b m hwrites
    rw [hlow, hhigh, lo8_toNat, hi8_toNat, speedCode_toNat]
    exact ⟨rfl, rfl⟩

/-- Settles O37: the two signs, the corner cases evaluated at their closed values, and the two bytes. -/
theorem altitudeCodeTruncatesAndWraps : Obligations.AltitudeCodeTruncatesAndWraps := by
  refine ⟨fun cfg a => ⟨altCode_of_nonneg cfg, altCode_of_neg cfg, fun hoffset ac hac ha => ?_⟩,
    fun cfg b v m hwrites => ?_⟩
  · rw [altCode, ha, hoffset]
    clear ha
    revert ac
    decide
  · obtain ⟨hlow, hhigh⟩ := rd_composeGps_alt b m hwrites
    rw [hlow, hhigh, hi8_append_lo8]

end Sys2Proof
end

section
/-! PROOFS. The arbiter family: the ACQUIRE that gets no port (spec/42_bus_port_arbiter.md R153). -/

namespace Sys2Proof

open Sys2Proof.Machine

/-! ### OpenPort refused -/

/-- A refused `OpenPort` opens no port (R66). -/
theorem openedPort_refused {p : Provider} (hrefused : p.openReply.handle = 0#32) (tag baud : Word32)
    (m : PortMode) : openedPort tag baud m p = none := if_pos hrefused

/-- A refused `OpenPort` leaves the provider as it was but for the call recorded (R66). -/
theorem providerOpenPort_refused {p : Provider} (hrefused : p.openReply.handle = 0#32) (tag baud : Word32)
    (m : PortMode) (c : Word32) :
    providerOpenPort tag baud m c p = callPort (.openPort tag baud m c) p := by
  rw [providerOpenPort, openedPort_refused hrefused]

/-- ACQUIRE's two calls, the second refused, change the record of calls only (R152, R153). -/
theorem callOpenPort_callFindPort_refused {s : State} (hrefused : s.provider.openReply.handle = 0#32) :
    callOpenPort (callFindPort s) = { s with
      provider := { s.provider with
        calls := s.provider.calls ++ [.findPort s.cfg.functionTag,
          .openPort s.cfg.functionTag s.cfg.baud .rx s.config] } } := by
  have hrefused' : (callFindPort s).provider.openReply.handle = 0#32 := hrefused
  rw [callOpenPort, providerOpenPort_refused hrefused']
  simp [callFindPort, callPort]

/-! ### ACQUIRE past its checks -/

/-- With its checks passed and no port to be had, found or opened, ACQUIRE raises `ACQUIRE_FAILED` after its
two calls (R150, R153). -/
theorem exec_acquire_noPort {s : State} (hfault : s.fault = 0#8) (hinit : s.initDone = true)
    (hfree : s.portAcquired = false) (hfound : foundPort s.cfg.functionTag s.provider = none)
    (hopened : openedPort s.cfg.functionTag s.cfg.baud .rx s.provider = none) :
    exec (.acquire 0#32) s =
      .next (raiseFault .acquireFailed 0x02#8 0#32 (callOpenPort (callFindPort s))) := by
  change execAcquire 0#32 s = _
  simp [execAcquire, hfault, hinit, hfree, hfound, hopened]

/-! ### The obligation -/

/-- Settles O19: with `OpenPort` refused too there is no port, and the two calls it makes change the record
of calls only. -/
theorem acquireFailureFaults : Obligations.AcquireFailureFaults := by
  intro s hfault hinit hfree hfound hrefused
  rw [exec_acquire_noPort hfault hinit hfree hfound (openedPort_refused hrefused _ _ _),
    callOpenPort_callFindPort_refused hrefused, raiseFault_after]
  rfl

end Sys2Proof
end

section
/-! PROOFS. The request detector family: what DETECT does in each of its five cases (R171 to R176), and a
TICK during a send, which polls no request (R181). -/

namespace Sys2Proof

open Sys2Proof.Machine

/-! ### DETECT as a row of the table -/

/-- With no send active the row runs the detector (R170). -/
theorem exec_detect_idle {s : State} (hidle : s.sendActive = false) : exec .detect s = .next (detect s) := by
  change execDetect s = _
  rw [execDetect, hidle]
  rfl

/-! ### A stretch of a tick that polls no request -/

/-- What R181 grants from `s`, in a send, to `t`: the FIFO is whole while the send goes on and empty once it
has ended, the window is untouched, and nothing was armed, consumed or begun. -/
structure PollsNoRequest (s t : State) : Prop where
  fifo_whole : t.sendActive = true → t.provider.rxFifo = s.provider.rxFifo
  fifo_emptied : t.sendActive = false → t.provider.rxFifo = []
  winArmed : t.winArmed = s.winArmed
  winT0 : t.winT0 = s.winT0
  trace : ∃ new, t.trace = s.trace ++ new ∧
    ∀ e ∈ new, e.name ≠ .arm ∧ e.name ≠ .consume ∧ e.name ≠ .beginSend

theorem PollsNoRequest.refl {s : State} (hsend : s.sendActive = true) : PollsNoRequest s s where
  fifo_whole _ := rfl
  fifo_emptied hend := by simp [hsend] at hend
  winArmed := rfl
  winT0 := rfl
  trace := ⟨[], by simp⟩

/-- Two stretches make one when the send is still active between them. -/
theorem PollsNoRequest.trans {s t u : State} (hst : PollsNoRequest s t) (hsend : t.sendActive = true)
    (htu : PollsNoRequest t u) : PollsNoRequest s u where
  fifo_whole hu := (htu.fifo_whole hu).trans (hst.fifo_whole hsend)
  fifo_emptied := htu.fifo_emptied
  winArmed := htu.winArmed.trans hst.winArmed
  winT0 := htu.winT0.trans hst.winT0
  trace := by
    obtain ⟨first, hfirst, hfirstNames⟩ := hst.trace
    obtain ⟨second, hsecond, hsecondNames⟩ := htu.trace
    refine ⟨first ++ second, by rw [hsecond, hfirst, List.append_assoc], fun e he => ?_⟩
    exact (List.mem_append.mp he).elim (hfirstNames e) (hsecondNames e)

/-- The answer of the command word is no part of what R181 speaks of. -/
theorem PollsNoRequest.answer {s t : State} (h : PollsNoRequest s t) (st : Status) (data : Word32) :
    PollsNoRequest s (answer st data t) :=
  ⟨h.fifo_whole, h.fifo_emptied, h.winArmed, h.winT0, h.trace⟩

/-- A raised fault leaves the FIFO and the window and traces EV_FAULT only (R241). -/
theorem raiseFault_pollsNoRequest {s : State} (hsend : s.sendActive = true) (c : FaultCode) (opcode : Byte)
    (time : Word32) : PollsNoRequest s (raiseFault c opcode time s) where
  fifo_whole _ := rfl
  fifo_emptied hend := by simp [hsend] at hend
  winArmed := rfl
  winT0 := rfl
  trace := ⟨_, raiseFault_trace c opcode time s, by simp⟩

/-- Step 1 of a tick appends at most EV_REFRESH (R214). -/
theorem tickRefresh_trace (s : State) :
    ∃ new, (tickRefresh s).trace = s.trace ++ new ∧ ∀ e ∈ new, e.name = .refresh := by
  unfold tickRefresh
  split
  · rw [refresh_eq]
    exact ⟨_, rfl, by simp⟩
  · exact ⟨[], by simp⟩

theorem tickRefresh_pollsNoRequest {s : State} (hsend : s.sendActive = true) :
    PollsNoRequest s (tickRefresh s) := by
  obtain ⟨hactive, _, _, _, _, hprovider, harmed, ht0, _, _⟩ := tickRefresh_cursor s
  obtain ⟨new, htrace, hnames⟩ := tickRefresh_trace s
  exact {
    fifo_whole := fun _ => by rw [hprovider]
    fifo_emptied := fun hend => by simp [hactive, hsend] at hend
    winArmed := harmed
    winT0 := ht0
    trace := ⟨new, htrace, fun e he => by simp [hnames e he]⟩ }

/-- ADVANCE with a stored byte leaves the FIFO and the send as they are; with the checksum it ends the send
and SWITCH_RX empties the FIFO (R194, R195, R156). -/
theorem advance_pollsNoRequest {s : State} (hsend : s.sendActive = true) : PollsNoRequest s (advance s) := by
  by_cases hlast : s.curRemaining = 1#8
  · rw [advance_last s hlast]
    exact ⟨nofun, fun _ => rfl, rfl, rfl, _, rfl, by simp⟩
  · rw [advance_byte s hlast]
    exact ⟨fun _ => rfl, fun hend => by simp [hsend] at hend, rfl, rfl, _, rfl, by simp⟩

/-! ### A TICK during a send -/

/-- A TICK is answered in the fault state, or fails one of its checks, or runs its body (R212, R213). -/
theorem exec_tick_next {s t : State} {now : Word32} (h : exec (.tick now) s = .next t) :
    t = answer .faulted 0#32 s ∨ (∃ c, t = raiseFault c 0x04#8 now s) ∨
      tickBody { s with now := now } = .next t := by
  change execTick now s = _ at h
  unfold execTick answerFaulted at h
  split_ifs at h
  · cases h; exact .inl rfl
  · cases h; exact .inr (.inl ⟨_, rfl⟩)
  · cases h; exact .inr (.inl ⟨_, rfl⟩)
  · exact .inr (.inr h)

/-- The body of a tick during a send is step 1 and, when the byte gate is open, one ADVANCE (R215, R217). -/
theorem tickBody_pollsNoRequest {s t : State} (hsend : s.sendActive = true) (h : tickBody s = .next t) :
    PollsNoRequest s t := by
  obtain ⟨hkept, _⟩ := tickRefresh_cursor s
  have hactive : (tickRefresh s).sendActive = true := hkept.trans hsend
  have hrefresh : PollsNoRequest s (tickRefresh s) := tickRefresh_pollsNoRequest hsend
  have hnext := tickBody_next s t h
  rw [tickDetect_sending _ hactive] at hnext
  obtain ⟨mask, ⟨rfl, _⟩ | ⟨rfl, _, _, _⟩⟩ := hnext
  · exact hrefresh.answer _ _
  · exact (hrefresh.trans hactive (advance_pollsNoRequest hactive)).answer _ _

theorem exec_tick_pollsNoRequest {s t : State} {now : Word32} (hsend : s.sendActive = true)
    (h : exec (.tick now) s = .next t) : PollsNoRequest s t := by
  obtain rfl | ⟨c, rfl⟩ | hbody := exec_tick_next h
  · exact (PollsNoRequest.refl hsend).answer _ _
  · exact raiseFault_pollsNoRequest hsend c _ now
  · obtain ⟨hwhole, hemptied, harmed, ht0, htrace⟩ :=
      tickBody_pollsNoRequest (s := { s with now := now }) hsend hbody
    exact ⟨hwhole, hemptied, harmed, ht0, htrace⟩

/-! ### The obligations -/

/-- Settles O27: a TICK during a send runs no DETECT, and each thing it can do instead polls no request. -/
theorem sendingTickReadsNoRequest : Obligations.SendingTickReadsNoRequest := by
  intro s t now hsend hexec
  obtain ⟨hwhole, hemptied, harmed, ht0, htrace⟩ := exec_tick_pollsNoRequest hsend hexec
  exact ⟨hwhole, hemptied, harmed, ht0, htrace⟩

/-- Settles O38: the detector's case of R171. -/
theorem detectWaitsForTwoBytes : Obligations.DetectWaitsForTwoBytes := by
  intro s hidle hfew
  rw [exec_detect_idle hidle, detect_few s hfew]

/-- Settles O39: the detector's case of R172. -/
theorem detectDiscardsNoise : Obligations.DetectDiscardsNoise := by
  intro s hidle hmany
  rw [exec_detect_idle hidle, detect_noise s hmany]

/-- Settles O40: the detector's case of R173. -/
theorem detectArmsTheWindow : Obligations.DetectArmsTheWindow := by
  intro s hidle htwo hunarmed
  rw [exec_detect_idle hidle, detect_arm s htwo hunarmed]

/-- Settles O41: the detector's case of R174, the difference of the times being `elapsed` (R11). -/
theorem detectWaitsForTheSettleTime : Obligations.DetectWaitsForTheSettleTime := by
  intro s hidle htwo harmed hearly
  have helapsed : elapsed s.winT0 s.now < s.cfg.settleUs := hearly
  rw [exec_detect_idle hidle, detect_wait s htwo harmed helapsed]

/-- Settles O42: the detector's case of R175, with `classify` written out (R176). -/
theorem detectConsumesASettledRequest : Obligations.DetectConsumesASettledRequest := by
  intro s id addr hidle hfifo harmed hsettled
  have helapsed : ¬ elapsed s.winT0 s.now < s.cfg.settleUs := BitVec.not_lt.mpr hsettled
  rw [exec_detect_idle hidle, detect_consume s id addr hfifo harmed helapsed]
  rfl

end Sys2Proof
end

section
/-! PROOFS. The frame transmitter family: BEGIN_SEND rejected during a send, with the records a TICK can make
(R191), its copy under `DOUBLE` (R192), and ADVANCE with a stored byte or the checksum (R193 to R195). -/

namespace Sys2Proof

open Sys2Proof.Machine

/-! ### BEGIN_SEND and ADVANCE as rows of the table -/

/-- The trace argument of the model and the one the statements write are the same code (Table V). -/
theorem kindByte_eq_kindCode (k : FrameKind) : kindByte k = kindCode k := by
  cases k <;> rfl

theorem exec_beginSend (k : FrameKind) (s : State) : exec (.beginSend k) s = .next (beginSend k s) := rfl

/-- During a send, with a sound cursor, the row runs ADVANCE (R193). -/
theorem exec_advance_sending {s : State} (hsend : s.sendActive = true) (hsound : cursorSound s = true) :
    exec .advance s = .next (advance s) := by
  change execAdvance s = _
  simp [execAdvance, hsend, hsound]

/-! ### The records a stretch of a tick appends -/

/-- From `s` to `t` the trace only grew, by records of the listed names. -/
def Records (names : List EventName) (s t : State) : Prop :=
  ∃ new, t.trace = s.trace ++ new ∧ ∀ e ∈ new, e.name ∈ names

theorem Records.of_trace_eq {s t : State} (names : List EventName) (h : t.trace = s.trace) :
    Records names s t :=
  ⟨[], by simp [h], nofun⟩

theorem Records.mono {names more : List EventName} {s t : State} (hsub : names ⊆ more)
    (h : Records names s t) : Records more s t := by
  obtain ⟨new, htrace, hnames⟩ := h
  exact ⟨new, htrace, fun e he => hsub (hnames e he)⟩

theorem Records.trans {names : List EventName} {s t u : State} (hst : Records names s t)
    (htu : Records names t u) : Records names s u := by
  obtain ⟨first, hfirst, hfirstNames⟩ := hst
  obtain ⟨second, hsecond, hsecondNames⟩ := htu
  refine ⟨first ++ second, by rw [hsecond, hfirst, List.append_assoc], fun e he => ?_⟩
  exact (List.mem_append.mp he).elim (hfirstNames e) (hsecondNames e)

theorem tickRefresh_records (s : State) : Records [.refresh] s (tickRefresh s) := by
  obtain ⟨new, htrace, hnames⟩ := tickRefresh_trace s
  exact ⟨new, htrace, fun e he => by simp [hnames e he]⟩

theorem detect_records (s : State) : Records [.discard, .arm, .consume] s (detect s) := by
  obtain ⟨_, h⟩ | ⟨_, h⟩ | ⟨_, _, h⟩ | ⟨_, _, _, h⟩ | ⟨_, _, _, _, _, h⟩ := detect_cases s <;> rw [h]
  · exact .of_trace_eq _ rfl
  · exact ⟨_, rfl, by simp⟩
  · exact ⟨_, rfl, by simp⟩
  · exact .of_trace_eq _ rfl
  · exact ⟨_, rfl, by simp⟩

theorem beginSend_records_idle {s : State} (k : FrameKind) (hidle : s.sendActive = false) :
    Records [.beginSend, .mode] s (beginSend k s) := by
  rw [beginSend_idle k s hidle]
  exact ⟨_, rfl, by simp⟩

theorem advance_records (s : State) :
    Records [.txByte, .txCksum, .mode, .discard, .sendDone] s (advance s) := by
  by_cases hlast : s.curRemaining = 1#8
  · rw [advance_last s hlast]
    exact ⟨_, rfl, by simp⟩
  · rw [advance_byte s hlast]
    exact ⟨_, rfl, by simp⟩

/-- Step 2 begins a send only where DETECT ran, with no send active, so BEGIN_SEND is not rejected there
(R191, R215). -/
theorem tickDetect_records (s : State) :
    Records [.discard, .arm, .consume, .beginSend, .mode] s (tickDetect s) := by
  obtain ⟨_, h⟩ | ⟨_, _, h⟩ | ⟨hidle, k, _, h⟩ := tickDetect_cases s <;> rw [h]
  · exact .of_trace_eq _ rfl
  · exact (detect_records s).mono (by simp)
  · obtain ⟨hkept, _⟩ := detect_cursor s
    have hbegin := beginSend_records_idle k (hkept.trans hidle)
    exact ((detect_records s).mono (by simp)).trans (hbegin.mono (by simp))

/-- The records that the four steps of a tick can make (R214 to R217). -/
def tickRecordNames : List EventName :=
  [.refresh, .discard, .arm, .consume, .beginSend, .mode, .txByte, .txCksum, .sendDone]

theorem tickBody_records {s t : State} (h : tickBody s = .next t) : Records tickRecordNames s t := by
  have hrefresh : Records tickRecordNames s (tickRefresh s) :=
    (tickRefresh_records s).mono (by decide)
  have hdetect : Records tickRecordNames s (tickDetect (tickRefresh s)) :=
    hrefresh.trans ((tickDetect_records _).mono (by decide))
  obtain ⟨mask, ⟨rfl, _⟩ | ⟨rfl, _⟩⟩ := tickBody_next s t h
  · exact hdetect
  · exact hdetect.trans ((advance_records _).mono (by decide))

/-- A TICK that is not run records a fault at most; one that is run records what its steps do
(R213, R241, R243). -/
theorem exec_tick_records {s t : State} {now : Word32} (h : exec (.tick now) s = .next t) :
    Records (.fault :: tickRecordNames) s t := by
  obtain rfl | ⟨c, rfl⟩ | hbody := exec_tick_next h
  · exact .of_trace_eq _ rfl
  · exact ⟨_, raiseFault_trace c _ now s, by simp⟩
  · have htimed : Records tickRecordNames s { s with now := now } := .of_trace_eq _ rfl
    exact (htimed.trans (tickBody_records hbody)).mono (List.subset_cons_self _ _)

/-! ### The obligations -/

/-- Settles O44: the rejecting case of BEGIN_SEND, and EV_BEGIN_REJECTED is none of a TICK's records. -/
theorem beginSendIsRejectedDuringASend : Obligations.BeginSendIsRejectedDuringASend := by
  refine ⟨fun s k hsend => ?_, fun s t now htick => ?_⟩
  · rw [exec_beginSend, beginSend_rejected k s hsend, kindByte_eq_kindCode]
  · obtain ⟨new, htrace, hnames⟩ := exec_tick_records htick
    refine ⟨new, htrace, fun e he hrejected => ?_⟩
    have hlisted : EventName.beginRejected ∈ EventName.fault :: tickRecordNames := hrejected ▸ hnames e he
    exact absurd hlisted (by decide)

/-- Settles O45: a rejected BEGIN_SEND leaves the buffers alone, any other leaves them as `swapIn` does. -/
theorem beginSendCopiesOnlyUnderDouble : Obligations.BeginSendCopiesOnlyUnderDouble := by
  intro s k
  refine ⟨beginSend k s, exec_beginSend k s, fun b i => ?_⟩
  cases hactive : s.sendActive
  · rw [beginSend_idle k s hactive]
    simp [rd_swapIn, BitVec.lt_def]
  · rw [beginSend_rejected k s hactive]
    simp

/-- Settles O46: both cursors are sound, and each is one of ADVANCE's two cases. -/
theorem advanceSendsOneByteOrTheChecksum : Obligations.AdvanceSendsOneByteOrTheChecksum := by
  intro s hsend
  refine ⟨fun hmany hoffset => ?_, fun hlast => ?_⟩
  · have hnonzero : s.curRemaining ≠ 0#8 := by bv_omega
    have hnotLast : s.curRemaining ≠ 1#8 := by bv_omega
    have hsound : cursorSound s = true := (cursorSound_iff s).mpr ⟨hnonzero, fun _ => hoffset⟩
    rw [exec_advance_sending hsend hsound, advance_byte s hnotLast]
  · have hsound : cursorSound s = true := (cursorSound_iff s).mpr (by simp [hlast])
    rw [exec_advance_sending hsend hsound, advance_last s hlast, kindByte_eq_kindCode]

end Sys2Proof
end

section
/-! PROOFS. The session dispatcher family: a checked TICK as its four steps (R212, R214 to R217), the checks
of INIT and TICK (R211, R213), and QUERY_BAUD in every phase (R218). -/

namespace Sys2Proof

open Sys2Proof.Machine

/-! ### TICK's result bits -/

/-- Each argument of the mask is its own bit, and no bit above bit 4 is set (R212). -/
theorem tickMask_bits (refreshed detectorRan begun written completed : Bool) :
    let mask := tickMask refreshed detectorRan begun written completed
    mask.getLsbD 0 = refreshed ∧ mask.getLsbD 1 = detectorRan ∧ mask.getLsbD 2 = begun ∧
    mask.getLsbD 3 = written ∧ mask.getLsbD 4 = completed ∧ mask < 32#32 := by
  revert refreshed detectorRan begun written completed
  decide

/-! ### Step 1: REFRESH -/

theorem exec_refresh (s : State) : exec .refresh s = .next (refresh s) := rfl

/-- Step 1 is the row REFRESH with its time recorded when a refresh is due, and nothing else (R214). -/
theorem tickRefresh_exec (s : State) :
    if s.cfg.refreshIntervalUs ≤ s.now - s.tLastRefresh then
      ∃ r, exec .refresh s = .next r ∧ tickRefresh s = { r with tLastRefresh := s.now }
    else tickRefresh s = s := by
  split_ifs with hinterval
  · exact ⟨refresh s, exec_refresh s, by rw [tickRefresh, if_pos ((refreshDue_iff s).mpr hinterval)]⟩
  · rw [tickRefresh, if_neg (mt (refreshDue_iff s).mp hinterval)]

/-- REFRESH leaves the cursor alone (R128), so it stays in its frame. -/
theorem tickRefresh_cursorInFrame {s : State} (hcursor : cursorInFrame s) :
    cursorInFrame (tickRefresh s) := by
  rw [tickRefresh_eq]
  exact hcursor

/-! ### Step 2: DETECT and BEGIN_SEND -/

/-- BEGIN_SEND leaves a send active, the one it starts or the one that rejects it (R190, R191). -/
theorem beginSend_sendActive (k : FrameKind) (s : State) : (beginSend k s).sendActive = true := by
  cases hactive : s.sendActive
  · rw [beginSend_idle k s hactive]
  · rw [beginSend_rejected k s hactive]
    exact hactive

/-- The cursor that BEGIN_SEND creates stands at offset 0 of a frame of at least one byte (R190, R9). -/
theorem beginSend_cursorInFrame {s : State} (k : FrameKind) (hlegal : configLegal s.cfg = true)
    (hidle : s.sendActive = false) : cursorInFrame (beginSend k s) := by
  obtain ⟨hmin, hmax⟩ := frameLen_bounds s.cfg hlegal k
  rw [beginSend_idle k s hidle]
  refine fun _ => ⟨?_, fun _ => ?_⟩ <;> bv_omega

/-- Step 2 is the row DETECT when no send is active, then the row BEGIN_SEND of the kind it returned
(R215). -/
theorem tickDetect_exec (s : State) :
    if s.sendActive = true then tickDetect s = s
    else exec .detect s = .next (detect s) ∧
      ((detect s).detected = none → tickDetect s = detect s) ∧
      (∀ k, (detect s).detected = some k → exec (.beginSend k) (detect s) = .next (tickDetect s)) := by
  split_ifs with hactive
  · exact tickDetect_sending s hactive
  · have hidle : s.sendActive = false := Bool.eq_false_of_not_eq_true hactive
    refine ⟨exec_detect_idle hidle, tickDetect_none s hidle, fun k hkind => ?_⟩
    rw [exec_beginSend, ← tickDetect_some s k hidle hkind]

theorem tickDetect_cursorInFrame {s : State} (hlegal : configLegal s.cfg = true) (hcursor : cursorInFrame s) :
    cursorInFrame (tickDetect s) := by
  obtain ⟨hdetected, _⟩ := detect_cursor s
  obtain ⟨_, h⟩ | ⟨hidle, _, h⟩ | ⟨hidle, k, _, h⟩ := tickDetect_cases s <;> rw [h]
  · exact hcursor
  · exact fun hactive => by simp [hdetected, hidle] at hactive
  · exact beginSend_cursorInFrame k ((detect_keeps s).cfg ▸ hlegal) (hdetected.trans hidle)

/-- Bit 2 of the result: a send is begun exactly when step 2 takes the block from idle to sending. -/
theorem tickBegins_eq (s : State) : tickBegins s = (!s.sendActive && (tickDetect s).sendActive) := by
  obtain ⟨hdetected, _⟩ := detect_cursor s
  obtain ⟨hactive, h⟩ | ⟨hidle, hnone, h⟩ | ⟨hidle, k, hsome, h⟩ := tickDetect_cases s <;> rw [h]
  · simp [tickBegins, hactive]
  · simp [tickBegins, hidle, hnone, hdetected]
  · simp [tickBegins, hidle, hsome, beginSend_sendActive]

/-! ### Step 4: ADVANCE -/

/-- Step 4's two conditions: a send is active and its byte gate is open (R216, R217). -/
def tickWrites (s : State) : Bool := s.sendActive && gateOpen s

theorem tickWrites_iff (s : State) :
    tickWrites s = true ↔ s.sendActive = true ∧ s.cfg.interByteUs ≤ s.now - s.tLastTx := by
  rw [tickWrites, Bool.and_eq_true, gateOpen_iff]

/-- Step 4 of a tick as a step of its own; `tickBody_steps` ties it to the model. -/
def tickAdvance (s : State) : State := if tickWrites s then advance s else s

theorem tickAdvance_open {s : State} (hwrites : tickWrites s = true) : tickAdvance s = advance s := by
  rw [tickAdvance, if_pos hwrites]

theorem tickAdvance_shut {s : State} (hwrites : ¬ tickWrites s = true) : tickAdvance s = s := by
  rw [tickAdvance, if_neg hwrites]

/-- Step 4 is the row ADVANCE under its two conditions (R216, R217). -/
theorem tickAdvance_exec {s : State} (hcursor : cursorInFrame s) :
    if s.sendActive = true ∧ s.cfg.interByteUs ≤ s.now - s.tLastTx then
      exec .advance s = .next (tickAdvance s)
    else tickAdvance s = s := by
  split_ifs with hgate
  · have hsound : cursorSound s = true := (cursorSound_iff s).mpr (hcursor hgate.1)
    rw [exec_advance_sending hgate.1 hsound, tickAdvance_open ((tickWrites_iff s).mpr hgate)]
  · exact tickAdvance_shut (mt (tickWrites_iff s).mp hgate)

/-! ### The body of a tick -/

/-- Steps 1 and 2 leave a cursor in its frame. -/
theorem tickDetect_tickRefresh_cursorInFrame {s : State} (hlegal : configLegal s.cfg = true)
    (hcursor : cursorInFrame s) : cursorInFrame (tickDetect (tickRefresh s)) :=
  tickDetect_cursorInFrame ((tickRefresh_keeps s).cfg ▸ hlegal) (tickRefresh_cursorInFrame hcursor)

/-- From a cursor in its frame the body completes, and it is its steps with their result bits
(R212, R214 to R217). -/
theorem tickBody_steps {s : State} (hlegal : configLegal s.cfg = true) (hcursor : cursorInFrame s) :
    let s1 := tickRefresh s
    let s2 := tickDetect s1
    let s3 := tickAdvance s2
    tickBody s = .next (answer .ok
      (tickMask (refreshDue s) (!s1.sendActive) (!s1.sendActive && s2.sendActive) (tickWrites s2)
        (s2.sendActive && !s3.sendActive)) s3) := by
  intro s1 s2 s3
  have hcursor2 : cursorInFrame s2 := tickDetect_tickRefresh_cursorInFrame hlegal hcursor
  rw [← tickBegins_eq s1]
  by_cases hwrites : tickWrites s2 = true
  · obtain ⟨hactive, _⟩ := (tickWrites_iff s2).mp hwrites
    have hsound : cursorSound s2 = true := (cursorSound_iff s2).mpr (hcursor2 hactive)
    have hs3 : s3 = advance s2 := tickAdvance_open hwrites
    rw [tickBody_byte s hwrites hsound, hs3, hwrites, hactive, Bool.true_and]
  · have hs3 : s3 = s2 := tickAdvance_shut hwrites
    have hshut : tickWrites s2 = false := Bool.eq_false_of_not_eq_true hwrites
    rw [tickBody_quiet s hshut, hs3, hshut, Bool.and_not_self]

/-! ### The obligations -/

/-- Settles O25: the steps of `tickBody_steps` are the rows' own, each under its test read at the tick's
`now`, which no step changes. -/
theorem tickRunsItsFourSteps : Obligations.TickRunsItsFourSteps := by
  intro s now hlegal hfault hinit hacquired hcursor
  let timed : State := { s with now := now }
  let s1 := tickRefresh timed
  let s2 := tickDetect s1
  have hkeeps : SubopKeeps timed s2 := (tickRefresh_keeps timed).trans (tickDetect_keeps s1)
  have hadvance := tickAdvance_exec (s := s2) (tickDetect_tickRefresh_cursorInFrame hlegal hcursor)
  have hwrites := tickWrites_iff s2
  rw [hkeeps.cfg, hkeeps.now] at hadvance hwrites
  have htick := (execTick_checked s now hfault hinit hacquired).trans
    (tickBody_steps (s := timed) hlegal hcursor)
  obtain ⟨hbit0, hbit1, hbit2, hbit3, hbit4, hbound⟩ :=
    tickMask_bits (refreshDue timed) (!s1.sendActive) (!s1.sendActive && s2.sendActive) (tickWrites s2)
      (s2.sendActive && !(tickAdvance s2).sendActive)
  refine ⟨s1, detect s1, s2, tickAdvance s2, _, tickRefresh_exec timed, tickDetect_exec s1, hadvance, htick,
    ?_, ?_, ?_, ?_, ?_, hbound⟩
  · rw [hbit0]
    exact refreshDue_iff timed
  · rw [hbit1, Bool.not_eq_true']
  · rw [hbit2, Bool.and_eq_true, Bool.not_eq_true']
  · rw [hbit3]
    exact hwrites
  · rw [hbit4, Bool.and_eq_true, Bool.not_eq_true']

/-- Settles O10: INIT's check of the held port (R211). -/
theorem initWhileAcquiredFaults : Obligations.InitWhileAcquiredFaults := by
  intro s cfg hfault hacquired
  change execInit cfg s = _
  rw [execInit, if_neg (not_not_intro hfault), if_pos hacquired, raiseFault_after]
  rfl

/-- Settles O11: TICK's two checks, in their order (R213). -/
theorem tickNeedsInitAndAcquire : Obligations.TickNeedsInitAndAcquire := by
  intro s now hfault
  change (_ → execTick now s = _) ∧ (_ → _ → execTick now s = _)
  refine ⟨fun hinit => ?_, fun hinit hacquired => ?_⟩
  · rw [execTick, if_neg (not_not_intro hfault), if_pos (by simp [hinit]), raiseFault_after]
    rfl
  · rw [execTick, if_neg (not_not_intro hfault), if_neg (by simp [hinit]), if_pos (by simp [hacquired]),
      raiseFault_after]
    rfl

/-- Settles O23: the fault state answers without a check, else the operand is checked before the answer
(R218, R243). -/
theorem queryBaudAnswersInEveryPhase : Obligations.QueryBaudAnswersInEveryPhase := by
  intro s op
  by_cases hfault : s.fault = 0#8
  · rw [if_neg (not_not_intro hfault)]
    by_cases hop : op = 0#32
    · change execQueryBaud op s = _
      rw [if_neg (not_not_intro hop), execQueryBaud, if_neg (not_not_intro hfault), if_neg (not_not_intro hop)]
      rfl
    · rw [if_pos hop, exec_queryBaud_illegal hfault hop]
  · change execQueryBaud op s = _
    rw [if_pos hfault, execQueryBaud, if_pos hfault]
    rfl

end Sys2Proof
end

section
/-! PROOFS. The exceptions family: the fault state answers every command word and changes nothing (R243), only
a reset leaves it (R244), and nothing inside a TICK raises a fault (spec/60_exceptions.md R246). -/

namespace Sys2Proof

open Sys2Proof.Machine

/-! ### Stretches that raise no fault -/

/-- From `s` to `t` no fault was raised or cleared: `FAULT` is as it was and no EV_FAULT was appended. -/
def RaisesNoFault (s t : State) : Prop :=
  t.fault = s.fault ∧ ∃ new, t.trace = s.trace ++ new ∧ ∀ e ∈ new, e.name ≠ .fault

theorem RaisesNoFault.of_records {names : List EventName} {s t : State} (hfault : t.fault = s.fault)
    (hrecords : Records names s t) (hnames : .fault ∉ names) : RaisesNoFault s t := by
  obtain ⟨new, htrace, hlisted⟩ := hrecords
  exact ⟨hfault, new, htrace, fun e he hname => hnames (hname ▸ hlisted e he)⟩

theorem RaisesNoFault.of_trace_eq {s t : State} (hfault : t.fault = s.fault) (htrace : t.trace = s.trace) :
    RaisesNoFault s t :=
  .of_records hfault (.of_trace_eq [] htrace) List.not_mem_nil

theorem RaisesNoFault.refl (s : State) : RaisesNoFault s s := .of_trace_eq rfl rfl

/-! ### The operations of the block -/

theorem refreshKind_raisesNoFault (k : FrameKind) (v : Snapshot) (s : State) :
    RaisesNoFault s (refreshKind k v s) := by
  rw [refreshKind_eq]
  exact .of_trace_eq rfl rfl

theorem refresh_raisesNoFault (s : State) : RaisesNoFault s (refresh s) := by
  rw [refresh_eq]
  exact ⟨rfl, _, rfl, by simp⟩

theorem detect_raisesNoFault (s : State) : RaisesNoFault s (detect s) :=
  .of_records (detect_keeps s).fault (detect_records s) (by decide)

/-- A rejected BEGIN_SEND is no fault either: it records EV_BEGIN_REJECTED (R191). -/
theorem beginSend_records (k : FrameKind) (s : State) :
    Records [.beginSend, .mode, .beginRejected] s (beginSend k s) := by
  cases hactive : s.sendActive
  · exact (beginSend_records_idle k hactive).mono (by simp)
  · rw [beginSend_rejected k s hactive]
    exact ⟨_, rfl, by simp⟩

theorem beginSend_raisesNoFault (k : FrameKind) (s : State) : RaisesNoFault s (beginSend k s) :=
  .of_records (beginSend_keeps k s).fault (beginSend_records k s) (by decide)

theorem advance_raisesNoFault (s : State) : RaisesNoFault s (advance s) :=
  .of_records (advance_keeps s).fault (advance_records s) (by decide)

theorem switchTx_raisesNoFault (s : State) : RaisesNoFault s (switchTx s) := by
  rw [switchTx_eq]
  exact ⟨rfl, _, rfl, by simp⟩

theorem switchRx_raisesNoFault (s : State) : RaisesNoFault s (switchRx s) := by
  rw [switchRx_eq]
  exact ⟨rfl, _, rfl, by simp⟩

theorem discardRx_raisesNoFault (r : DiscardReason) (s : State) : RaisesNoFault s (discardRx r s) := by
  rw [discardRx_eq]
  exact ⟨rfl, _, rfl, by simp⟩

/-! ### The rows that are no host command -/

/-- DETECT as a row runs the detector or, during a send, does nothing (log 8). -/
theorem exec_detect_next {s t : State} (h : exec .detect s = .next t) : t = s ∨ t = detect s := by
  change execDetect s = _ at h
  unfold execDetect at h
  split_ifs at h <;> cases h
  · exact .inl rfl
  · exact .inr rfl

/-- ADVANCE as a row does nothing without a send, and with a sound cursor it advances (logs 8 and 9). -/
theorem exec_advance_next {s t : State} (h : exec .advance s = .next t) : t = s ∨ t = advance s := by
  change execAdvance s = _ at h
  unfold execAdvance at h
  split_ifs at h <;> cases h
  · exact .inl rfl
  · exact .inr rfl

/-- No request row, response row or sub-operation raises a fault (R246): only host commands do (R241). -/
theorem exec_raisesNoFault_of_not_host {cfg : Config} {i : Instr} {s t : State}
    (hrow : isHostCode (encode cfg i) = false) (h : exec i s = .next t) : RaisesNoFault s t := by
  cases i with
  | init _ | acquire _ | release _ | tick _ | queryBaud _ | obsRead _ => cases hrow
  | reqGps => cases h; exact beginSend_raisesNoFault .gps s
  | reqEam => cases h; exact beginSend_raisesNoFault .eam s
  | reqBinOther _ | reqOther _ _ => cases h; exact .refl s
  | respGps => cases h; exact refreshKind_raisesNoFault .gps _ s
  | respEam => cases h; exact refreshKind_raisesNoFault .eam _ s
  | refresh => cases h; exact refresh_raisesNoFault s
  | detect =>
    obtain rfl | rfl := exec_detect_next h
    · exact .refl t
    · exact detect_raisesNoFault s
  | beginSend k => cases h; exact beginSend_raisesNoFault k s
  | advance =>
    obtain rfl | rfl := exec_advance_next h
    · exact .refl t
    · exact advance_raisesNoFault s
  | switchTx => cases h; exact switchTx_raisesNoFault s
  | switchRx => cases h; exact switchRx_raisesNoFault s
  | discardRx r => cases h; exact discardRx_raisesNoFault r s

/-! ### The host commands in the fault state -/

theorem exec_init_faulted {s : State} (hfault : s.fault ≠ 0#8) (cfg : Word32) :
    exec (.init cfg) s = .next (answer .faulted 0#32 s) := by
  change execInit cfg s = _
  rw [execInit, if_pos hfault, answerFaulted]

theorem exec_acquire_faulted {s : State} (hfault : s.fault ≠ 0#8) (op : Word32) :
    exec (.acquire op) s = .next (answer .faulted 0#32 s) := by
  change execAcquire op s = _
  rw [execAcquire, if_pos hfault, answerFaulted]

theorem exec_release_faulted {s : State} (hfault : s.fault ≠ 0#8) (op : Word32) :
    exec (.release op) s = .next (answer .faulted 0#32 s) := by
  change execRelease op s = _
  rw [execRelease, if_pos hfault, answerFaulted]

theorem exec_tick_faulted {s : State} (hfault : s.fault ≠ 0#8) (now : Word32) :
    exec (.tick now) s = .next (answer .faulted 0#32 s) := by
  change execTick now s = _
  rw [execTick, if_pos hfault, answerFaulted]

theorem exec_queryBaud_faulted {s : State} (hfault : s.fault ≠ 0#8) (op : Word32) :
    exec (.queryBaud op) s = .next (answer .faulted (if op = 0#32 then s.cfg.baud else 0#32) s) := by
  rw [queryBaudAnswersInEveryPhase s op, if_pos hfault]
  rfl

/-- In the fault state an unlisted index and an operand with a high bit set are answered alike (R243). -/
theorem exec_obsRead_faulted {s : State} (hfault : s.fault ≠ 0#8) (op : Word32) :
    exec (.obsRead op) s = .next (answer .faulted
      (if op ≤ 0xFFFF#32 then (observe s op.toNat).getD 0#32 else 0#32) s) := by
  change execObsRead op s = _
  by_cases hop : op ≤ 0xFFFF#32
  · rw [execObsRead, if_neg (not_not_intro ((operand_high_zero op).mpr hop)), operand_low op hop, if_pos hop]
    cases observe s op.toNat <;> simp [hfault]
  · rw [execObsRead, if_pos (mt (operand_high_zero op).mp hop), if_pos hfault, if_neg hop, answerFaulted]

theorem reservedCommand_faulted {s : State} (hfault : s.fault ≠ 0#8) (opcode : Byte) :
    reservedCommand opcode s = answer .faulted 0#32 s := if_pos hfault

/-- The data of the fault state's answer to a command word (R243): QUERY_BAUD still answers the constant
`BAUD`, OBS_READ a legal index. `exec_faulted` and `step_host_faulted` tie it to the model. -/
def faultedData (opcode : Byte) (op : Word32) (s : State) : Word32 :=
  if opcode = 0x05#8 ∧ op = 0#32 then s.cfg.baud
  else if opcode = 0x06#8 ∧ op ≤ 0xFFFF#32 then (observe s op.toNat).getD 0#32
  else 0#32

/-- A reserved opcode is neither QUERY_BAUD's nor OBS_READ's. -/
theorem faultedData_reserved {opcode : Byte} {op : Word32} (s : State) (h : hostCommand opcode op = none) :
    faultedData opcode op s = 0#32 := by
  have hreserved := (hostCommand_none opcode op).mp h
  have hbaud : opcode ≠ 0x05#8 := by bv_omega
  have hobs : opcode ≠ 0x06#8 := by bv_omega
  simp [faultedData, hbaud, hobs]

/-- Every host command is answered in the fault state before any check of its own (R243, R245). -/
theorem exec_faulted {s : State} {opcode : Byte} {op : Word32} {i : Instr} (hfault : s.fault ≠ 0#8)
    (hcommand : hostCommand opcode op = some i) :
    exec i s = .next (answer .faulted (faultedData opcode op s) s) := by
  unfold hostCommand at hcommand
  split_ifs at hcommand <;> cases hcommand <;> subst opcode
  · exact exec_init_faulted hfault op
  · exact exec_acquire_faulted hfault op
  · exact exec_release_faulted hfault op
  · exact exec_tick_faulted hfault op
  · simp [exec_queryBaud_faulted hfault op, faultedData]
  · simp [exec_obsRead_faulted hfault op, faultedData]

/-- A faulted block's step at a command word, legal, illegal or reserved, is its answer (R243). -/
theorem step_host_faulted {s : State} {opcode : Byte} {op : Word32} {rest : List Input}
    (hlegal : configLegal s.cfg = true) (hinputs : s.inputs = .code (hostWord opcode op) :: rest)
    (hfault : s.fault ≠ 0#8) :
    step s = .next (answer .faulted (faultedData opcode op s) { s with inputs := rest }) := by
  rw [step_host s opcode op rest hlegal hinputs]
  cases hcommand : hostCommand opcode op with
  | none =>
    rw [faultedData_reserved s hcommand]
    exact congrArg Host.Outcome.next (reservedCommand_faulted (s := { s with inputs := rest }) hfault opcode)
  | some i => exact exec_faulted (s := { s with inputs := rest }) hfault hcommand

/-! ### Steps from the fault state -/

theorem exists_hostCommand_of_isHostCode {cfg : Config} {i : Instr} (h : isHostCode (encode cfg i) = true) :
    ∃ opcode op, hostCommand opcode op = some i := by
  cases i with
  | init c => exact ⟨0x01#8, c, rfl⟩
  | acquire op => exact ⟨0x02#8, op, rfl⟩
  | release op => exact ⟨0x03#8, op, rfl⟩
  | tick now => exact ⟨0x04#8, now, rfl⟩
  | queryBaud op => exact ⟨0x05#8, op, rfl⟩
  | obsRead op => exact ⟨0x06#8, op, rfl⟩
  | _ => cases h

/-- In the fault state no instruction raises a fault: a host command answers only (R243), and no other row
ever raises one. -/
theorem exec_raisesNoFault_of_faulted {i : Instr} {s t : State} (hfault : s.fault ≠ 0#8)
    (h : exec i s = .next t) : RaisesNoFault s t := by
  cases hrow : isHostCode (encode s.cfg i)
  · exact exec_raisesNoFault_of_not_host hrow h
  · obtain ⟨opcode, op, hcommand⟩ := exists_hostCommand_of_isHostCode hrow
    rw [exec_faulted hfault hcommand] at h
    cases h
    exact .of_trace_eq rfl rfl

theorem resetNext_iff (s : State) : resetNext s = true ↔ ∃ rest, s.inputs = .reset :: rest := by
  unfold resetNext
  split <;> simp_all

/-- A step at a reset is the reset, once the input is taken (R260). -/
theorem step_reset {s : State} {rest : List Input} (hlegal : configLegal s.cfg = true)
    (hinputs : s.inputs = .reset :: rest) : step s = .next (resetBlock { s with inputs := rest }) := by
  simp [step, hlegal, hinputs]

theorem step_fault_of_resetNext {s t : State} (hreset : resetNext s = true) (h : step s = .next t) :
    t.fault = 0#8 := by
  obtain ⟨rest, hinputs⟩ := (resetNext_iff s).mp hreset
  obtain ⟨hlegal, _⟩ := step_cases s t h
  rw [step_reset hlegal hinputs] at h
  cases h
  rfl

theorem step_raisesNoFault_of_faulted {s t : State} (hfault : s.fault ≠ 0#8) (hreset : resetNext s = false)
    (h : step s = .next t) : RaisesNoFault s t := by
  obtain ⟨_, ⟨_, rfl⟩ | ⟨rest, hinputs, _⟩ | ⟨a, rest, _, rfl⟩ | ⟨_, i, rest, _, _, hexec⟩ |
    ⟨_, opcode, rest, _, _, rfl⟩⟩ := step_cases s t h
  · exact .refl t
  · simp [(resetNext_iff s).mpr ⟨rest, hinputs⟩] at hreset
  · rw [applyAgent_frame]
    exact .of_trace_eq rfl rfl
  · exact exec_raisesNoFault_of_faulted (s := { s with inputs := rest }) hfault hexec
  · rw [reservedCommand_faulted (s := { s with inputs := rest }) hfault]
    exact .of_trace_eq rfl rfl

/-! ### A TICK that passed its checks -/

theorem tickAdvance_keeps (s : State) : SubopKeeps s (tickAdvance s) := by
  by_cases hwrites : tickWrites s = true
  · rw [tickAdvance_open hwrites]
    exact advance_keeps s
  · rw [tickAdvance_shut hwrites]
    exact .refl s

/-- The body of a tick completes with the answer OK, over steps that keep `FAULT` and the answers so far
(R212, R246). -/
theorem tickBody_completes {s : State} (hlegal : configLegal s.cfg = true) (hcursor : cursorInFrame s) :
    ∃ mask t, tickBody s = .next (answer .ok mask t) ∧ SubopKeeps s t :=
  ⟨_, _, tickBody_steps hlegal hcursor,
    ((tickRefresh_keeps s).trans (tickDetect_keeps _)).trans (tickAdvance_keeps _)⟩

/-! ### The obligations -/

/-- Settles O8: every command word, reserved or not, is answered before any check of its own. -/
theorem faultedBlockAnswersWithoutEffect : Obligations.FaultedBlockAnswersWithoutEffect := by
  intro s opcode op rest hlegal hinputs hfault
  rw [step_host_faulted hlegal hinputs hfault]
  rfl

/-- Settles O9: a reset clears `FAULT`, and every other kind of step raises no fault in the fault state. -/
theorem onlyResetLeavesTheFaultState : Obligations.OnlyResetLeavesTheFaultState := by
  intro s t hfault hstep
  exact ⟨fun hreset => step_fault_of_resetNext hreset hstep,
    fun hreset => step_raisesNoFault_of_faulted hfault hreset hstep⟩

/-- Settles O26: no sub-operation is a host command, and a checked TICK's body completes with the fault 0
that its checks found. -/
theorem noFaultInsideATick : Obligations.NoFaultInsideATick := by
  refine ⟨fun i s t hsubop hexec => ?_, fun s now hlegal hfault hinit hacquired hcursor => ?_⟩
  · have hrow : isHostCode (encode s.cfg i) = false := by
      fin_cases hsubop <;> rfl
    exact exec_raisesNoFault_of_not_host hrow hexec
  · obtain ⟨mask, t, hbody, hkeeps⟩ := tickBody_completes (s := { s with now := now }) hlegal hcursor
    refine ⟨answer .ok mask t, mask, (execTick_checked s now hfault hinit hacquired).trans hbody,
      hkeeps.fault.trans hfault, ?_⟩
    rw [answer_results, hkeeps.results]
    rfl

end Sys2Proof
end

section
/-! PROOFS. The reset family: what a reset clears and leaves (spec/70_reset_and_hazards.md R260), and what the
cleared block answers before INIT (R261). -/

namespace Sys2Proof

open Sys2Proof.Machine

/-! ### The cleared block -/

/-- A reset clears the block from every state (R260). -/
theorem resetBlock_clears (s : State) : ResetBlock (resetBlock s) where
  session := ⟨rfl, rfl, rfl⟩
  port := ⟨rfl, rfl, rfl, rfl, rfl, rfl, rfl⟩
  cursor := ⟨rfl, rfl, rfl, rfl, rfl⟩
  timers := ⟨rfl, rfl, rfl, rfl⟩
  buffers _ _ := rfl
  trace := rfl

/-- The initial state is its own reset, so every fact about a reset is one about it. -/
theorem resetBlock_reset : resetBlock State.reset = State.reset := rfl

/-- A step that takes a reset leaves a cleared block. -/
theorem resetBlock_of_step {s r : State} {rest : List Input} (hinputs : s.inputs = .reset :: rest)
    (h : step s = .next r) : ResetBlock r := by
  obtain ⟨hlegal, _⟩ := step_cases s r h
  rw [step_reset hlegal hinputs] at h
  cases h
  exact resetBlock_clears _

theorem phase_of_resetBlock {s : State} (h : ResetBlock s) : phase s = .uninit := by
  obtain ⟨hinit, _, hfault⟩ := h.session
  simp [phase, hinit, hfault]

/-! ### Commands before INIT and before ACQUIRE -/

/-- ACQUIRE requires INIT before it looks for a port (R150). -/
theorem exec_acquire_notInitialized {s : State} (hfault : s.fault = 0#8) (hinit : s.initDone = false) :
    exec (.acquire 0#32) s = .next (afterFault 0x02#8 0x02#8 0#32 s) := by
  change execAcquire 0#32 s = _
  rw [execAcquire, if_neg (not_not_intro hfault), if_neg (not_not_intro rfl), if_pos (by simp [hinit]),
    raiseFault_after]
  rfl

/-- RELEASE requires a held port, whether or not INIT ran (R154). -/
theorem exec_release_notAcquired {s : State} (hfault : s.fault = 0#8) (hfree : s.portAcquired = false) :
    exec (.release 0#32) s = .next (afterFault 0x04#8 0x03#8 0#32 s) := by
  change execRelease 0#32 s = _
  rw [execRelease, if_neg (not_not_intro hfault), if_neg (not_not_intro rfl), if_pos (by simp [hfree]),
    raiseFault_after]
  rfl

/-- Outside the fault state QUERY_BAUD answers `BAUD` with the status OK (R218). -/
theorem exec_queryBaud_unfaulted {s : State} (hfault : s.fault = 0#8) :
    exec (.queryBaud 0#32) s = .next (answer .ok s.cfg.baud s) := by
  rw [queryBaudAnswersInEveryPhase s 0#32, if_neg (not_not_intro hfault), if_neg (not_not_intro rfl)]
  rfl

/-! ### Observation (Table O) -/

/-- OBS_READ answers an index of Table O with its content (R219). -/
theorem exec_obsRead_listed {s : State} {op v : Word32} (hfault : s.fault = 0#8) (hop : op ≤ 0xFFFF#32)
    (hobserve : observe s op.toNat = some v) : exec (.obsRead op) s = .next (answer .ok v s) := by
  change execObsRead op s = _
  rw [execObsRead, if_neg (not_not_intro ((operand_high_zero op).mpr hop)), operand_low op hop, hobserve]
  simp [hfault]

/-- The indices past the registers are looked up in the four buffers. -/
theorem observe_past_registers (s : State) {i : Nat} (h : 8 < i) :
    observe s i = (observeBuf s (.frame .gps) i).or
      ((observeBuf s (.frame .eam) i).or
        ((observeBuf s (.next .gps) i).or (observeBuf s (.next .eam) i))) := by
  unfold observe
  split
  iterate 9 omega
  rfl

/-- An index of one buffer's bytes is no index of another buffer's. -/
theorem observeBuf_other (s : State) {b c : Buf} (hne : c ≠ b) (j : Byte) :
    observeBuf s c (bufBase b + j.toNat) = none := by
  refine observeBuf_none s c _ fun ⟨hbase, hend⟩ => hne ?_
  have hlen := (frameLen s.cfg (bufKind c)).isLt
  have hsame : bufBase c + (BitVec.ofNat 8 (bufBase b + j.toNat - bufBase c)).toNat =
      bufBase b + j.toNat := by
    rw [BitVec.toNat_ofNat, Nat.mod_eq_of_lt (by omega)]
    omega
  exact (address_inj hsame).1

theorem bufBase_bounds (b : Buf) : 0x0100 ≤ bufBase b ∧ bufBase b ≤ 0x0400 := by
  rcases b with ⟨⟨⟩⟩ | ⟨⟨⟩⟩ <;> decide

/-- Table O shows every stored byte of each buffer. -/
theorem observe_buffer (s : State) (b : Buf) (j : Byte) (hj : j < frameLen s.cfg (bufKind b)) :
    observe s (bufBase b + j.toNat) = some ((rd s.mem b j).setWidth 32) := by
  have hpast : 8 < bufBase b + j.toNat := by have := bufBase_bounds b; omega
  have hown := observeBuf_at s b j hj
  rw [observe_past_registers s hpast]
  rcases b with ⟨⟨⟩⟩ | ⟨⟨⟩⟩ <;> simp [hown, observeBuf_other]

/-- A buffer's index fits the operand of OBS_READ. -/
theorem bufferIndex_legal (b : Buf) (j : Byte) :
    (BitVec.ofNat 32 (bufBase b + j.toNat)).toNat = bufBase b + j.toNat ∧
      BitVec.ofNat 32 (bufBase b + j.toNat) ≤ 0xFFFF#32 := by
  have hj := j.isLt
  have := bufBase_bounds b
  have hnat : (BitVec.ofNat 32 (bufBase b + j.toNat)).toNat = bufBase b + j.toNat := by
    rw [BitVec.toNat_ofNat, Nat.mod_eq_of_lt (by omega)]
  refine ⟨hnat, BitVec.le_def.mpr ?_⟩
  rw [hnat]
  simp
  omega

/-! ### Observation of the cleared block -/

theorem statusWord_of_resetBlock {s : State} (h : ResetBlock s) : statusWord s = 0#32 := by
  obtain ⟨hinit, _, _⟩ := h.session
  obtain ⟨hacquired, _, hshared, hmode, _, hsaved, _⟩ := h.port
  obtain ⟨hactive, hframe, hoffset, hremaining, hcksum⟩ := h.cursor
  obtain ⟨_, harmed, _, _⟩ := h.timers
  rw [statusWord, statusFlags, hinit, hacquired, hshared, hmode, hsaved, hactive, hframe, hoffset, hremaining,
    hcksum, harmed]
  decide

/-- The nine register indices of Table O read 0 in a cleared block. -/
theorem observe_register_of_resetBlock {s : State} (h : ResetBlock s) {i : Nat} (hi : i ≤ 8) :
    observe s i = some 0#32 := by
  obtain ⟨_, hconfig, hfault⟩ := h.session
  obtain ⟨_, hhandle, _, _, hbaud, _, hsavedBaud⟩ := h.port
  obtain ⟨hlastTx, _, hwinT0, hlastRefresh⟩ := h.timers
  interval_cases i
  · exact congrArg some (statusWord_of_resetBlock h)
  · exact congrArg (fun v : Byte => some (v.setWidth 32)) hfault
  · exact congrArg some hwinT0
  · exact congrArg some hlastTx
  · exact congrArg some hlastRefresh
  · exact congrArg some hbaud
  · exact congrArg some hsavedBaud
  · exact congrArg some hconfig
  · exact congrArg some hhandle

theorem observe_buffer_of_resetBlock {s : State} (h : ResetBlock s) (b : Buf) (j : Byte)
    (hj : j < frameLen s.cfg (bufKind b)) : observe s (bufBase b + j.toNat) = some 0#32 := by
  rw [observe_buffer s b j hj, h.buffers b j]
  rfl

theorem exec_obsRead_register_of_resetBlock {s : State} (h : ResetBlock s) {i : Word32} (hi : i ≤ 0x0008#32) :
    exec (.obsRead i) s = .next (answer .ok 0#32 s) := by
  obtain ⟨_, _, hfault⟩ := h.session
  have hop : i ≤ 0xFFFF#32 := by bv_omega
  exact exec_obsRead_listed hfault hop (observe_register_of_resetBlock h (BitVec.le_def.mp hi))

theorem exec_obsRead_buffer_of_resetBlock {s : State} (h : ResetBlock s) (b : Buf) (j : Byte)
    (hj : j < frameLen s.cfg (bufKind b)) :
    exec (.obsRead (BitVec.ofNat 32 (bufBase b + j.toNat))) s = .next (answer .ok 0#32 s) := by
  obtain ⟨_, _, hfault⟩ := h.session
  obtain ⟨hnat, hop⟩ := bufferIndex_legal b j
  exact exec_obsRead_listed hfault hop (hnat.symm ▸ observe_buffer_of_resetBlock h b j hj)

/-! ### The obligations -/

/-- Settles O15: the answers rest on the cleared registers and buffers alone, whatever state was reset. -/
theorem answersAfterReset : Obligations.AnswersAfterReset := by
  intro s r rest hinputs hstep
  have hcleared := resetBlock_of_step hinputs hstep
  obtain ⟨hinit, _, hfault⟩ := hcleared.session
  obtain ⟨hfree, _⟩ := hcleared.port
  exact ⟨exec_queryBaud_unfaulted hfault, exec_release_notAcquired hfault hfree,
    exec_acquire_notInitialized hfault hinit, fun now => (tickNeedsInitAndAcquire r now hfault).1 hinit,
    fun _ hi => exec_obsRead_register_of_resetBlock hcleared hi,
    fun b j hj => exec_obsRead_buffer_of_resetBlock hcleared b j hj⟩

/-- Settles O14: the initial state is a reset block, and a reset input's step is `resetBlock`, which copies
the other agents, the configuration and the host's side. -/
theorem resetClearsTheBlockOnly : Obligations.ResetClearsTheBlockOnly := by
  refine ⟨resetBlock_reset ▸ resetBlock_clears State.reset, fun s rest hlegal hinputs => ?_⟩
  have hcleared := resetBlock_clears { s with inputs := rest }
  exact ⟨_, step_reset hlegal hinputs, hcleared, phase_of_resetBlock hcleared, rfl, rfl, rfl, rfl, rfl⟩

end Sys2Proof
end

section
/-! PROOFS. The arbiter family: what the provider's calls do to the named port (spec/20_memory.md R65 to R67),
the ACQUIRE that gets a port (spec/42_bus_port_arbiter.md R150 to R152), RELEASE (R154) and the two after each
other, the mode switches and DISCARD_RX (R155 to R157). -/

namespace Sys2Proof

open Sys2Proof.Machine

/-! ### The provider's calls -/

/-- `SetMode` at one port (R65). -/
def portSetMode (h : Word32) (m : PortMode) (q : Port) : Port := if q.handle = h then { q with mode := m } else q

/-- `SetBaud` at one port (R65). -/
def portSetBaud (h n : Word32) (q : Port) : Port := if q.handle = h then { q with baud := n } else q

/-- `EndFunction` at one port (R67). -/
def portEndFunction (h tag : Word32) (q : Port) : Port :=
  if q.handle = h then { q with tags := q.tags.filter (fun g => g != tag) } else q

/-- `BeginFunction` at one port (R67): the tag is listed once (log 15). -/
def portBeginFunction (h tag : Word32) (q : Port) : Port :=
  if q.handle = h then { q with tags := if tag ∈ q.tags then q.tags else tag :: q.tags } else q

theorem providerSetMode_ports_map (drains : Bool) (h : Word32) (m : PortMode) (p : Provider) :
    (providerSetMode drains h m p).ports = p.ports.map (portSetMode h m) := rfl

theorem providerSetBaud_eq (h n : Word32) (p : Provider) :
    providerSetBaud h n p =
      { p with ports := p.ports.map (portSetBaud h n), calls := p.calls ++ [.setBaud n] } := rfl

theorem providerEndFunction_eq (h tag : Word32) (p : Provider) :
    providerEndFunction h tag p =
      { p with ports := p.ports.map (portEndFunction h tag), calls := p.calls ++ [.endFunction h tag] } := rfl

theorem providerBeginFunction_eq (h tag : Word32) (p : Provider) :
    providerBeginFunction h tag p =
      { p with ports := p.ports.map (portBeginFunction h tag), calls := p.calls ++ [.beginFunction h tag] } := by
  have hport (q : Port) : (if q.handle = h && !q.tags.contains tag then { q with tags := tag :: q.tags } else q) =
      portBeginFunction h tag q := by
    unfold portBeginFunction
    by_cases htag : tag ∈ q.tags
    · simp [htag]
    · simp [htag]
  simp only [providerBeginFunction, callPort, hport]

/-- A handle answered by `OpenPort` is the port it opened, in the mode and baud the provider chose (log 16). -/
theorem openedPort_answered {p : Provider} (hanswered : p.openReply.handle ≠ 0#32) (tag baud : Word32)
    (m : PortMode) :
    openedPort tag baud m p = some { handle := p.openReply.handle, mode := p.openReply.mode.getD m,
                                     baud := p.openReply.baud.getD baud, tags := [tag] } := if_neg hanswered

theorem refused_of_openedPort_none {p : Provider} {tag baud : Word32} {m : PortMode}
    (hnone : openedPort tag baud m p = none) : p.openReply.handle = 0#32 := by
  by_contra hanswered
  simp [openedPort_answered hanswered] at hnone

theorem providerOpenPort_answered {p : Provider} (hanswered : p.openReply.handle ≠ 0#32) (tag baud : Word32)
    (m : PortMode) (c : Word32) :
    providerOpenPort tag baud m c p = { p with
      ports := { handle := p.openReply.handle, mode := p.openReply.mode.getD m
                 baud := p.openReply.baud.getD baud, tags := [tag] } ::
        p.ports.filter (fun q => q.handle != p.openReply.handle)
      calls := p.calls ++ [.openPort tag baud m c] } := by
  rw [providerOpenPort, openedPort_answered hanswered]
  rfl

/-- A port that `FindPort` answers is listed, registered for the tag and has a handle (R66). -/
theorem foundPort_some {tag : Word32} {p : Provider} {q : Port} (hfound : foundPort tag p = some q) :
    q ∈ p.ports ∧ tag ∈ q.tags ∧ q.handle ≠ 0#32 := by
  have hmem := List.mem_of_find?_eq_some hfound
  have htest := List.find?_some hfound
  simp only [Bool.and_eq_true, bne_iff_ne, List.contains_iff_mem] at htest
  exact ⟨hmem, htest.2, htest.1⟩

theorem foundPort_none {tag : Word32} {p : Provider} (hnone : foundPort tag p = none) {q : Port}
    (hq : q ∈ p.ports) (htag : tag ∈ q.tags) : q.handle = 0#32 := by
  have htest := List.find?_eq_none.mp hnone q hq
  simpa [htag] using htest

/-- Settles O22, one call after the other. -/
theorem portCallsChangeTheNamedPortOnly : Obligations.PortCallsChangeTheNamedPortOnly := by
  intro drains h n tag cfg m p
  refine ⟨⟨providerSetMode_ports_map drains h m p, rfl, rfl, rfl, rfl⟩, providerSetBaud_eq h n p,
    providerBeginFunction_eq h tag p, providerEndFunction_eq h tag p, fun hrefused => ?_,
    fun hanswered => providerOpenPort_answered hanswered tag n m cfg, fun _ => foundPort_some,
    fun hnone _ => foundPort_none hnone⟩
  rw [providerOpenPort_refused hrefused]
  rfl

/-! ### ACQUIRE and RELEASE as record updates -/

/-- The ACQUIRE that found port `p` (R150, R151). -/
theorem acquireFound_eq (p : Port) (s : State) :
    acquireDone (acquireFound p (callFindPort s)) = { s with
      savedMode := p.mode, savedBaud := p.baud, portHandle := p.handle, portShared := true
      portBaud := s.cfg.baud, portMode := .rx, portAcquired := true, winArmed := false
      provider := providerBeginFunction p.handle s.cfg.functionTag
        (providerSetMode s.cfg.providerDrainsTx p.handle .rx
          (providerSetBaud p.handle s.cfg.baud
            (callPort (.findPort s.cfg.functionTag) s.provider)))
      trace := s.trace ++ [{ name := .mode, a := 0x00#8, b := 0x00#8, t := 0#32 },
        { name := .acquire, a := 0x01#8, b := 0x00#8, t := 0#32 }]
      results := s.results ++ [(0x00#8 ++ 0#32 : BitVec 40)] } := by
  simp [acquireDone, acquireFound, callFindPort, setMode, setBaud, emitAt, answer, resultWord, statusBits,
    bitByte, modeBit]

/-- ACQUIRE's two calls, the second answered (R152). -/
theorem callOpenPort_callFindPort_answered {s : State} (hanswered : s.provider.openReply.handle ≠ 0#32) :
    callOpenPort (callFindPort s) = { s with
      provider := { s.provider with
        ports := { handle := s.provider.openReply.handle, mode := s.provider.openReply.mode.getD .rx
                   baud := s.provider.openReply.baud.getD s.cfg.baud, tags := [s.cfg.functionTag] } ::
          s.provider.ports.filter (fun q => q.handle != s.provider.openReply.handle)
        calls := s.provider.calls ++ [.findPort s.cfg.functionTag,
          .openPort s.cfg.functionTag s.cfg.baud .rx s.config] } } := by
  have hanswered' : (callFindPort s).provider.openReply.handle ≠ 0#32 := hanswered
  rw [callOpenPort, providerOpenPort_answered hanswered']
  simp [callFindPort, callPort]

/-- The ACQUIRE that took the opened port `p`, whatever its calls left of the provider (R150, R152). -/
theorem acquireOpened_eq (p : Port) (s : State) :
    acquireDone (acquireOpened p (callOpenPort (callFindPort s))) = { s with
      savedMode := p.mode, savedBaud := p.baud, portHandle := p.handle, portShared := false
      portBaud := s.cfg.baud, portMode := .rx, portAcquired := true, winArmed := false
      provider := (callOpenPort (callFindPort s)).provider
      trace := s.trace ++ [{ name := .acquire, a := 0x00#8, b := 0x00#8, t := 0#32 }]
      results := s.results ++ [(0x00#8 ++ 0#32 : BitVec 40)] } := by
  simp [acquireDone, acquireOpened, callOpenPort, callFindPort, emitAt, answer, resultWord, statusBits, bitByte]

/-- ACQUIRE's two calls leave the FIFO and the transmitted bytes alone, whatever is answered (R66). -/
theorem callOpenPort_provider (s : State) :
    (callOpenPort (callFindPort s)).provider.rxFifo = s.provider.rxFifo ∧
      (callOpenPort (callFindPort s)).provider.tx = s.provider.tx := by
  obtain ⟨hfifo, htx, _⟩ := providerOpenPort_frame s.cfg.functionTag s.cfg.baud .rx s.config
    (callFindPort s).provider
  exact ⟨hfifo, htx⟩

/-- The ACQUIRE that got no port, its two calls recorded (R153). -/
theorem acquireFails_eq {s : State} (hrefused : s.provider.openReply.handle = 0#32) :
    raiseFault .acquireFailed 0x02#8 0#32 (callOpenPort (callFindPort s)) =
      afterFault 0x05#8 0x02#8 0#32 { s with
        provider := { s.provider with
          calls := s.provider.calls ++ [.findPort s.cfg.functionTag,
            .openPort s.cfg.functionTag s.cfg.baud .rx s.config] } } := by
  rw [callOpenPort_callFindPort_refused hrefused, raiseFault_after]
  rfl

/-- RELEASE (R154). -/
theorem releasePort_eq (s : State) :
    releasePort s = { s with
      portMode := s.savedMode, portBaud := s.savedBaud
      portAcquired := false, portHandle := 0#32, portShared := false, winArmed := false
      provider := providerEndFunction s.portHandle s.cfg.functionTag
        (providerSetBaud s.portHandle s.savedBaud
          (providerSetMode s.cfg.providerDrainsTx s.portHandle s.savedMode s.provider))
      trace := s.trace ++
        [{ name := .mode, a := if s.savedMode = .tx then 0x01#8 else 0x00#8, b := 0x00#8, t := 0#32 },
         { name := .release, a := 0x00#8, b := 0x00#8, t := 0#32 }]
      results := s.results ++ [(0x00#8 ++ 0#32 : BitVec 40)] } := by
  cases hmode : s.savedMode <;>
    simp [releasePort, setMode, setBaud, emitAt, answer, resultWord, statusBits, bitByte, modeBit, hmode]

/-! ### ACQUIRE and RELEASE past their checks -/

theorem exec_acquire_found {s : State} {p : Port} (hfault : s.fault = 0#8) (hinit : s.initDone = true)
    (hfree : s.portAcquired = false) (hfound : foundPort s.cfg.functionTag s.provider = some p) :
    exec (.acquire 0#32) s = .next (acquireDone (acquireFound p (callFindPort s))) := by
  change execAcquire 0#32 s = _
  simp [execAcquire, hfault, hinit, hfree, hfound]

theorem exec_acquire_opened {s : State} {p : Port} (hfault : s.fault = 0#8) (hinit : s.initDone = true)
    (hfree : s.portAcquired = false) (hfound : foundPort s.cfg.functionTag s.provider = none)
    (hopened : openedPort s.cfg.functionTag s.cfg.baud .rx s.provider = some p) :
    exec (.acquire 0#32) s = .next (acquireDone (acquireOpened p (callOpenPort (callFindPort s)))) := by
  change execAcquire 0#32 s = _
  simp [execAcquire, hfault, hinit, hfree, hfound, hopened]

theorem exec_release_idle {s : State} (hfault : s.fault = 0#8) (hheld : s.portAcquired = true)
    (hidle : s.sendActive = false) : exec (.release 0#32) s = .next (releasePort s) := by
  change execRelease 0#32 s = _
  simp [execRelease, hfault, hheld, hidle]

theorem exec_acquire_held {s : State} (hfault : s.fault = 0#8) (hinit : s.initDone = true)
    (hheld : s.portAcquired = true) : exec (.acquire 0#32) s = .next (afterFault 0x03#8 0x02#8 0#32 s) := by
  change execAcquire 0#32 s = _
  rw [execAcquire, if_neg (not_not_intro hfault), if_neg (not_not_intro rfl), if_neg (by simp [hinit]),
    if_pos hheld, raiseFault_after]
  rfl

theorem exec_release_sending {s : State} (hfault : s.fault = 0#8) (hheld : s.portAcquired = true)
    (hsend : s.sendActive = true) : exec (.release 0#32) s = .next (afterFault 0x06#8 0x03#8 0#32 s) := by
  change execRelease 0#32 s = _
  rw [execRelease, if_neg (not_not_intro hfault), if_neg (not_not_intro rfl), if_neg (by simp [hheld]),
    if_pos hsend, raiseFault_after]
  rfl

/-! ### A found port, acquired and released -/

/-- At the found port the calls of AcquireFound and of RELEASE together restore the mode and baud and drop the
tag; a port of another handle they leave alone (R28, R151, R154). -/
theorem acquire_release_port {p q : Port} {tag : Word32} (baud : Word32) (htag : tag ∈ p.tags)
    (hunique : q.handle = p.handle → q = p) :
    portEndFunction p.handle tag (portSetBaud p.handle p.baud (portSetMode p.handle p.mode
      (portBeginFunction p.handle tag (portSetMode p.handle .rx (portSetBaud p.handle baud q))))) =
    if q = p then { q with tags := q.tags.filter (fun g => g != tag) } else q := by
  by_cases hq : q = p
  · simp [portEndFunction, portSetBaud, portSetMode, portBeginFunction, hq, htag]
  · have hother : q.handle ≠ p.handle := mt hunique hq
    simp [portEndFunction, portSetBaud, portSetMode, portBeginFunction, hq, hother]

/-! ### The obligations -/

/-- Settles O12: the checks of ACQUIRE and RELEASE, in their order. -/
theorem acquireAndReleasePreconditions : Obligations.AcquireAndReleasePreconditions := by
  intro s hfault
  exact ⟨exec_acquire_notInitialized hfault, exec_acquire_held hfault, exec_release_notAcquired hfault,
    exec_release_sending hfault⟩

/-- Settles O17: the checks pass, and `acquireFound_eq` is the whole next state. -/
theorem acquireTakesAFoundPort : Obligations.AcquireTakesAFoundPort := by
  intro s p hfault hinit hfree hfound
  rw [exec_acquire_found hfault hinit hfree hfound, acquireFound_eq]

/-- Settles O18: the opened port is the one that the answer of `OpenPort` describes. -/
theorem acquireOpensAPort : Obligations.AcquireOpensAPort := by
  intro s hfault hinit hfree hfound hanswered
  rw [exec_acquire_opened hfault hinit hfree hfound (openedPort_answered hanswered _ _ _),
    acquireOpened_eq, callOpenPort_callFindPort_answered hanswered]
  exact ⟨_, rfl, rfl⟩

/-- Settles O20: the checks pass, and `releasePort_eq` is the whole next state. -/
theorem releaseRestoresThePort : Obligations.ReleaseRestoresThePort := by
  intro s hfault hheld hidle
  rw [exec_release_idle hfault hheld hidle, releasePort_eq]

/-- Settles O21: RELEASE finds the port held by the ACQUIRE before it, and port by port the calls of the two
make `acquire_release_port`. -/
theorem acquireThenReleaseRestoresTheFoundPort : Obligations.AcquireThenReleaseRestoresTheFoundPort := by
  intro s p hfault hinit hfree hidle hfound hunique
  obtain ⟨_, htag, _⟩ := foundPort_some hfound
  have hacquire := acquireTakesAFoundPort s p hfault hinit hfree hfound
  refine ⟨_, _, hacquire, releaseRestoresThePort _ hfault rfl hidle, ?_, rfl, rfl, rfl, rfl, ?_⟩
  · simp only [providerEndFunction_eq, providerSetBaud_eq, providerSetMode_ports_map, providerBeginFunction_eq,
      callPort_ports, List.map_map]
    refine List.map_congr_left fun q hq => ?_
    simp only [Function.comp_apply]
    exact acquire_release_port s.cfg.baud htag (hunique q hq)
  · simp [phase, hfault, hinit]

/-- Settles O48: the three rows are `switchTx`, `switchRx` and `discardRx` in every state. -/
theorem modeSwitchesAndDiscard : Obligations.ModeSwitchesAndDiscard := by
  intro s
  refine ⟨congrArg Host.Outcome.next (switchTx_eq s), congrArg Host.Outcome.next (switchRx_eq s), fun r => ?_⟩
  cases r <;> exact congrArg Host.Outcome.next (discardRx_eq _ s)

end Sys2Proof
end

section
/-! PROOFS. What a step can do, said once for every proof about steps: one case for each thing a command word
does (R241 to R245), each thing a checked TICK does after its refresh (R214 to R217, R220), and each kind of
input (log 1). -/

namespace Sys2Proof

open Sys2Proof.Machine

/-! ### A checked TICK -/

/-- What a checked tick does to `s`, the state after its step 1. Its step 2 begins a send only in a tick whose
byte gate is shut, so one tick does one of these (R215 to R217, R220). -/
inductive TickDoes (s : State) : State → Prop
  | waits (hsend : s.sendActive = true) : TickDoes s s
  | advances (hsend : s.sendActive = true) (hgate : s.cfg.interByteUs ≤ s.now - s.tLastTx)
      (hsound : cursorSound s = true) : TickDoes s (advance s)
  | polls (hidle : s.sendActive = false) (hnone : (detect s).detected = none) : TickDoes s (detect s)
  | begins (k : FrameKind) (hidle : s.sendActive = false) (hkind : (detect s).detected = some k) :
      TickDoes s (beginSend k (detect s))

/-- The tick that begins a send has just written `T_LAST_TX`, so it writes no byte (R220 (b)). -/
theorem tickWrites_beginSend {s : State} (k : FrameKind) (hlegal : configLegal s.cfg = true)
    (hidle : s.sendActive = false) : tickWrites (beginSend k s) = false := by
  have hgate := interByte_pos s.cfg hlegal
  rw [Bool.eq_false_iff, ne_eq, tickWrites_iff, beginSend_idle k s hidle]
  simpa using hgate

theorem tickDoes_of_steps {s : State} (hlegal : configLegal s.cfg = true)
    (hsound : tickWrites (tickDetect s) = true → cursorSound (tickDetect s) = true) :
    TickDoes s (tickAdvance (tickDetect s)) := by
  obtain ⟨hdetected, _⟩ := detect_cursor s
  obtain ⟨hsend, h⟩ | ⟨hidle, hnone, h⟩ | ⟨hidle, k, hkind, h⟩ := tickDetect_cases s <;> rw [h] at hsound ⊢
  · by_cases hwrites : tickWrites s = true
    · rw [tickAdvance_open hwrites]
      exact .advances hsend ((tickWrites_iff s).mp hwrites).2 (hsound hwrites)
    · rw [tickAdvance_shut hwrites]
      exact .waits hsend
  · rw [tickAdvance_shut (by simp [tickWrites, hdetected, hidle])]
    exact .polls hidle hnone
  · have hshut : tickWrites (beginSend k (detect s)) = false :=
      tickWrites_beginSend k ((detect_keeps s).cfg ▸ hlegal) (hdetected.trans hidle)
    rw [tickAdvance_shut (by simp [hshut])]
    exact .begins k hidle hkind

/-- The body of a tick is its refresh, then one of the things of `TickDoes`, then the answer (R212). -/
theorem tickDoes_of_tickBody {s t : State} (hlegal : configLegal s.cfg = true) (h : tickBody s = .next t) :
    ∃ mask u, t = answer .ok mask u ∧ TickDoes (tickRefresh s) u := by
  have hlegal1 : configLegal (tickRefresh s).cfg = true := (tickRefresh_keeps s).cfg ▸ hlegal
  obtain ⟨mask, ⟨rfl, hshut⟩ | ⟨rfl, hsend, hgate, hsound⟩⟩ := tickBody_next s t h
  · change tickWrites (tickDetect (tickRefresh s)) = false at hshut
    have hshut' : ¬ tickWrites (tickDetect (tickRefresh s)) = true := by simp [hshut]
    refine ⟨mask, _, rfl, ?_⟩
    have hdoes := tickDoes_of_steps hlegal1 (fun hwrites => absurd hwrites hshut')
    rwa [tickAdvance_shut hshut'] at hdoes
  · have hopen : tickWrites (tickDetect (tickRefresh s)) = true := by simp [tickWrites, hsend, hgate]
    refine ⟨mask, _, rfl, ?_⟩
    have hdoes := tickDoes_of_steps hlegal1 (fun _ => hsound)
    rwa [tickAdvance_open hopen] at hdoes

/-! ### A command word -/

/-- The time in a faulting command's record: a TICK's operand, 0 for every other command (R44, log 25). -/
def faultTime (opcode : Byte) (op : Word32) : Word32 := if opcode = 0x04#8 then op else 0#32

/-- What the command word of `opcode` and `op` does to `s`: it only answers, or raises a fault, or completes.
The failed ACQUIRE is the one fault after provider calls (R153). -/
inductive CommandDoes (s : State) : Byte → Word32 → State → Prop
  | answers (opcode : Byte) (op : Word32) (st : Status) (data : Word32) :
      CommandDoes s opcode op (answer st data s)
  | faults (opcode : Byte) (op : Word32) (c : FaultCode) (hfault : s.fault = 0#8) (hcode : c ≠ .acquireFailed) :
      CommandDoes s opcode op (raiseFault c opcode (faultTime opcode op) s)
  | inits (handle : Word32) (hfault : s.fault = 0#8) (hfree : s.portAcquired = false) :
      CommandDoes s 0x01#8 handle (initSession handle s)
  | acquiresFound (p : Port) (hfault : s.fault = 0#8) (hinit : s.initDone = true)
      (hfree : s.portAcquired = false) (hfound : foundPort s.cfg.functionTag s.provider = some p) :
      CommandDoes s 0x02#8 0#32 (acquireDone (acquireFound p (callFindPort s)))
  | acquiresOpened (p : Port) (hfault : s.fault = 0#8) (hinit : s.initDone = true)
      (hfree : s.portAcquired = false)
      (hopened : openedPort s.cfg.functionTag s.cfg.baud .rx s.provider = some p) :
      CommandDoes s 0x02#8 0#32 (acquireDone (acquireOpened p (callOpenPort (callFindPort s))))
  | acquireFails (hfault : s.fault = 0#8)
      (hrefused : s.provider.openReply.handle = 0#32) :
      CommandDoes s 0x02#8 0#32 (raiseFault .acquireFailed 0x02#8 0#32 (callOpenPort (callFindPort s)))
  | releases (hfault : s.fault = 0#8) (hheld : s.portAcquired = true) (hidle : s.sendActive = false) :
      CommandDoes s 0x03#8 0#32 (releasePort s)
  | ticks (now mask : Word32) (u : State) (hfault : s.fault = 0#8) (hinit : s.initDone = true)
      (hheld : s.portAcquired = true) (hdoes : TickDoes (tickRefresh { s with now := now }) u) :
      CommandDoes s 0x04#8 now (answer .ok mask u)

theorem commandDoes_init {s t : State} {handle : Word32} (h : exec (.init handle) s = .next t) :
    CommandDoes s 0x01#8 handle t := by
  change execInit handle s = _ at h
  unfold execInit answerFaulted at h
  split_ifs at h with hfault hheld <;> cases h
  · exact .answers ..
  · exact .faults _ _ .initWhileAcquired (not_not.mp hfault) nofun
  · exact .inits handle (not_not.mp hfault) (Bool.eq_false_of_not_eq_true hheld)

theorem commandDoes_acquire {s t : State} {op : Word32} (h : exec (.acquire op) s = .next t) :
    CommandDoes s 0x02#8 op t := by
  change execAcquire op s = _ at h
  unfold execAcquire answerFaulted at h
  split_ifs at h with hfault hop hinit hheld
  · cases h; exact .answers ..
  · cases h; exact .faults _ _ .illegalCommand (not_not.mp hfault) nofun
  · cases h; exact .faults _ _ .notInitialized (not_not.mp hfault) nofun
  · cases h; exact .faults _ _ .alreadyAcquired (not_not.mp hfault) nofun
  · obtain rfl := not_not.mp hop
    have hinit' : s.initDone = true := by simpa using hinit
    have hfree : s.portAcquired = false := Bool.eq_false_of_not_eq_true hheld
    split at h
    · cases h; exact .acquiresFound _ (not_not.mp hfault) hinit' hfree ‹_›
    · split at h <;> cases h
      · exact .acquiresOpened _ (not_not.mp hfault) hinit' hfree ‹_›
      · exact .acquireFails (not_not.mp hfault) (refused_of_openedPort_none ‹_›)

theorem commandDoes_release {s t : State} {op : Word32} (h : exec (.release op) s = .next t) :
    CommandDoes s 0x03#8 op t := by
  change execRelease op s = _ at h
  unfold execRelease answerFaulted at h
  split_ifs at h with hfault hop hfree hsend <;> cases h
  · exact .answers ..
  · exact .faults _ _ .illegalCommand (not_not.mp hfault) nofun
  · exact .faults _ _ .notAcquired (not_not.mp hfault) nofun
  · exact .faults _ _ .releaseWhileSending (not_not.mp hfault) nofun
  · obtain rfl := not_not.mp hop
    exact .releases (not_not.mp hfault) (by simpa using hfree) (Bool.eq_false_of_not_eq_true hsend)

theorem commandDoes_tick {s t : State} {now : Word32} (hlegal : configLegal s.cfg = true)
    (h : exec (.tick now) s = .next t) : CommandDoes s 0x04#8 now t := by
  change execTick now s = _ at h
  unfold execTick answerFaulted at h
  split_ifs at h with hfault hinit hfree
  · cases h; exact .answers ..
  · cases h; exact .faults _ _ .notInitialized (not_not.mp hfault) nofun
  · cases h; exact .faults _ _ .notAcquired (not_not.mp hfault) nofun
  · obtain ⟨mask, u, rfl, hdoes⟩ := tickDoes_of_tickBody (s := { s with now := now }) hlegal h
    exact .ticks now mask u (not_not.mp hfault) (by simpa using hinit) (by simpa using hfree) hdoes

theorem commandDoes_queryBaud {s t : State} {op : Word32} (h : exec (.queryBaud op) s = .next t) :
    CommandDoes s 0x05#8 op t := by
  change execQueryBaud op s = _ at h
  unfold execQueryBaud at h
  split_ifs at h with hfault hop <;> cases h
  · exact .answers ..
  · exact .answers ..
  · exact .faults _ _ .illegalCommand (not_not.mp hfault) nofun
  · exact .answers ..

theorem commandDoes_obsRead {s t : State} {op : Word32} (h : exec (.obsRead op) s = .next t) :
    CommandDoes s 0x06#8 op t := by
  change execObsRead op s = _ at h
  unfold execObsRead answerFaulted at h
  split at h
  · split_ifs at h with hfault <;> cases h
    · exact .answers ..
    · exact .faults _ _ .illegalCommand (not_not.mp hfault) nofun
  · split at h <;> cases h <;> exact .answers ..

theorem commandDoes_reserved {s : State} {opcode : Byte} (op : Word32)
    (hreserved : opcode = 0x00#8 ∨ 0x07#8 ≤ opcode) : CommandDoes s opcode op (reservedCommand opcode s) := by
  by_cases hfault : s.fault = 0#8
  · have hraise := CommandDoes.faults opcode op .illegalCommand hfault nofun
    have hnotTick : opcode ≠ 0x04#8 := by bv_omega
    rw [faultTime, if_neg hnotTick] at hraise
    rwa [reservedCommand, if_neg (not_not_intro hfault)]
  · rw [reservedCommand_faulted hfault]
    exact .answers ..

/-- A step that takes a command word does what `CommandDoes` lists, once the input is taken. -/
theorem commandDoes_of_step {s t : State} {opcode : Byte} {op : Word32} {rest : List Input}
    (hinputs : s.inputs = .code (hostWord opcode op) :: rest) (h : step s = .next t) :
    CommandDoes { s with inputs := rest } opcode op t := by
  obtain ⟨hlegal, _⟩ := step_cases s t h
  rw [step_host s opcode op rest hlegal hinputs] at h
  cases hcommand : hostCommand opcode op with
  | none =>
    simp only [hcommand] at h
    cases h
    exact commandDoes_reserved op ((hostCommand_none opcode op).mp hcommand)
  | some i =>
    simp only [hcommand] at h
    unfold hostCommand at hcommand
    split_ifs at hcommand <;> cases hcommand <;> subst opcode
    · exact commandDoes_init h
    · exact commandDoes_acquire h
    · exact commandDoes_release h
    · exact commandDoes_tick hlegal h
    · exact commandDoes_queryBaud h
    · exact commandDoes_obsRead h

/-! ### A step -/

/-- What a step does to `s`, one case for each kind of input (log 1); a code at the bench port is a row that is
no host command (log 2). -/
inductive StepDoes (s : State) : State → Prop
  | idles : StepDoes s s
  | resets (rest : List Input) (hinputs : s.inputs = .reset :: rest) :
      StepDoes s (resetBlock { s with inputs := rest })
  | acts (a : AgentAct) (rest : List Input) (hinputs : s.inputs = .agent a :: rest) :
      StepDoes s (applyAgent a { s with inputs := rest })
  | commands (opcode : Byte) (op : Word32) (rest : List Input) (t : State)
      (hinputs : s.inputs = .code (hostWord opcode op) :: rest)
      (hdoes : CommandDoes { s with inputs := rest } opcode op t) : StepDoes s t
  | runsRow (i : Instr) (rest : List Input) (t : State) (hinputs : s.inputs = .code (encode s.cfg i) :: rest)
      (hrow : isHostCode (encode s.cfg i) = false) (hexec : exec i { s with inputs := rest } = .next t) :
      StepDoes s t

/-- At the bench port the decoder accepts only rows that are no host command, and names no command for what it
rejects. -/
theorem decode_bench {cfg : Config} {c : Code} (hbench : isHostCode c = false) :
    (∀ i, decode cfg c = .ok i → encode cfg i = c) ∧ (∀ i, decode cfg c ≠ .rejected (.mustBeZero i)) ∧
      (∀ opcode, decode cfg c ≠ .rejected (.reservedOpcode opcode)) := by
  refine ⟨fun i hi => (decodeAcceptsOnlyEncodings cfg c i hi).2, ?_⟩
  cases c with
  | host _ => cases hbench
  | request _ => exact ⟨nofun, nofun⟩
  | response _ =>
    simp only [decode, decodeResponse]
    constructor <;> intro _ <;> split_ifs <;> nofun
  | subop _ _ =>
    simp only [decode, decodeSubop, plainSubop]
    constructor <;> intro _ <;> split_ifs <;> nofun

theorem hostWord_or_bench (c : Code) : (∃ opcode op, c = hostWord opcode op) ∨ isHostCode c = false := by
  cases c with
  | host w => exact .inl ⟨_, _, hostWord_eta w⟩
  | request _ | response _ | subop _ _ => exact .inr rfl

theorem stepDoes_of_step {s t : State} (h : step s = .next t) : StepDoes s t := by
  obtain ⟨_, ⟨_, rfl⟩ | ⟨rest, hinputs, rfl⟩ | ⟨a, rest, hinputs, rfl⟩ | ⟨c, i, rest, hinputs, hdecode, hexec⟩ |
    ⟨c, opcode, rest, hinputs, hdecode, _⟩⟩ := step_cases s t h
  · exact .idles
  · exact .resets rest hinputs
  · exact .acts a rest hinputs
  · obtain ⟨opcode, op, rfl⟩ | hbench := hostWord_or_bench c
    · exact .commands opcode op rest t hinputs (commandDoes_of_step hinputs h)
    · obtain ⟨hrow, hzero, _⟩ := decode_bench (cfg := s.cfg) hbench
      obtain rfl := hrow i (hdecode.resolve_right (hzero i))
      exact .runsRow i rest t hinputs hbench hexec
  · obtain ⟨opcode, op, rfl⟩ | hbench := hostWord_or_bench c
    · exact .commands opcode op rest t hinputs (commandDoes_of_step hinputs h)
    · obtain ⟨_, _, hreserved⟩ := decode_bench (cfg := s.cfg) hbench
      exact absurd hdecode (hreserved opcode)

end Sys2Proof
end

section
/-! PROOFS. The session invariant (spec/10_state.md R40, R41, spec/43_request_detector.md R179): one lemma for
each thing that a step can do. -/

namespace Sys2Proof

open Sys2Proof.Machine

/-! ### What the invariant gives a proof -/

/-- A flag is not both clear and set. -/
theorem absurd_flag {b : Bool} {p : Prop} (hclear : b = false) (hset : b = true) : p :=
  absurd (hclear.symm.trans hset) Bool.false_ne_true

/-- Without a held port there is no send. -/
theorem idle_of_free {s : State} (h : SessionInv s) (hfree : s.portAcquired = false) : s.sendActive = false :=
  Bool.eq_false_of_not_eq_true fun hsend => absurd_flag hfree (h.sendHeld hsend)

/-- The cursor of a session is one that ADVANCE accepts (R41, R61). -/
theorem cursorInFrame_of_session {s : State} (h : SessionInv s) : cursorInFrame s := by
  intro hsend
  have hcount := h.cursorCount hsend
  have hleft := h.cursorLeft hsend
  exact ⟨by bv_omega, fun _ => by bv_omega⟩

/-- While a stored byte remains, both cursor registers step without a carry (R41). -/
theorem cursor_step {s : State} (h : SessionInv s) (hsend : s.sendActive = true) (hmore : s.curRemaining ≠ 1#8) :
    (s.curOffset + 1#8).toNat = s.curOffset.toNat + 1 ∧
      (s.curRemaining - 1#8).toNat + 1 = s.curRemaining.toNat ∧ 2 ≤ s.curRemaining.toNat := by
  have hcount := h.cursorCount hsend
  have hleft := h.cursorLeft hsend
  have hlen := frameLen_bounds s.cfg h.legal s.curFrame
  refine ⟨?_, ?_, ?_⟩ <;> bv_omega

/-- In a session with nothing at the bench port, the input taken is no bench code (log 2). -/
theorem hardwareInput_of_session {s : State} {x : Input} {rest : List Input} (h : SessionInv s)
    (hinputs : s.inputs = x :: rest) :
    hardwareInput x = true ∧ benchFree { s with inputs := rest } = true := by
  have hbench := h.bench
  rwa [benchFree, hinputs, List.all_cons, Bool.and_eq_true] at hbench

/-! ### Inputs, answers, faults, resets and agents -/

theorem sessionInv_takeInput {s : State} {x : Input} {rest : List Input} (h : SessionInv s)
    (hinputs : s.inputs = x :: rest) : SessionInv { s with inputs := rest } :=
  { h with bench := (hardwareInput_of_session h hinputs).2 }

theorem sessionInv_answer {s : State} (h : SessionInv s) (st : Status) (data : Word32) :
    SessionInv (answer st data s) := { h with }

theorem faultBits_le (c : FaultCode) : faultBits c ≤ 0x07#8 := by
  cases c <;> decide

theorem sessionInv_raiseFault {s : State} (h : SessionInv s) (c : FaultCode) (opcode : Byte) (t : Word32) :
    SessionInv (raiseFault c opcode t s) := { h with faultCode := faultBits_le c }

/-- A cleared block is in a session: nothing is held, sent or armed (R260). -/
theorem sessionInv_of_cleared {s : State} (h : ResetBlock s) (hlegal : configLegal s.cfg = true)
    (hbench : benchFree s = true) (hfifo : s.provider.rxFifo.length ≤ s.cfg.rxFifoCapacity) : SessionInv s := by
  obtain ⟨_, _, hfault⟩ := h.session
  obtain ⟨hfree, _⟩ := h.port
  obtain ⟨hidle, hcursor⟩ := h.cursor
  obtain ⟨_, hdisarmed, _⟩ := h.timers
  have hnotHeld : ¬ s.portAcquired = true := Bool.eq_false_iff.mp hfree
  have hnoSend : ¬ s.sendActive = true := Bool.eq_false_iff.mp hidle
  have hnotArmed : ¬ s.winArmed = true := Bool.eq_false_iff.mp hdisarmed
  exact {
    legal := hlegal
    bench := hbench
    faultCode := by simp [hfault]
    heldInit := fun hheld => absurd hheld hnotHeld
    sendHeld := fun hsend => absurd hsend hnoSend
    sendTx := fun hsend => absurd hsend hnoSend
    idleRx := fun _ hheld => absurd hheld hnotHeld
    sendDisarmed := fun hsend => absurd hsend hnoSend
    cursorCount := fun hsend => absurd hsend hnoSend
    cursorLeft := fun hsend => absurd hsend hnoSend
    cursorClear := fun _ => hcursor
    armedHeld := fun harmed => absurd harmed hnotArmed
    armedPair := fun harmed => absurd harmed hnotArmed
    fifoBound := hfifo }

theorem sessionInv_resetBlock {s : State} (h : SessionInv s) : SessionInv (resetBlock s) :=
  sessionInv_of_cleared (resetBlock_clears s) h.legal h.bench h.fifoBound

/-- Another agent adds bytes at most, and within the FIFO's capacity (R69). -/
theorem sessionInv_applyAgent {s : State} (h : SessionInv s) (a : AgentAct) : SessionInv (applyAgent a s) := by
  obtain ⟨_, _, hgrows, hbound⟩ := applyAgent_provider a s
  rw [applyAgent_frame]
  exact { h with
    armedPair := fun harmed => (h.armedPair harmed).trans hgrows
    fifoBound := hbound h.fifoBound }

/-! ### INIT, ACQUIRE and RELEASE -/

theorem sessionInv_initSession {s : State} (h : SessionInv s) (handle : Word32) :
    SessionInv (initSession handle s) :=
  { h with
    heldInit := fun _ => rfl
    sendDisarmed := fun _ => rfl
    armedHeld := nofun
    armedPair := nofun }

/-- ACQUIRE comes with no port held, so with no send, and leaves a held port in receive mode (R150, R151). -/
theorem sessionInv_acquireFound {s : State} (h : SessionInv s) (hinit : s.initDone = true)
    (hfree : s.portAcquired = false) (p : Port) :
    SessionInv (acquireDone (acquireFound p (callFindPort s))) := by
  have hidle := idle_of_free h hfree
  rw [acquireFound_eq]
  exact { h with
    heldInit := fun _ => hinit
    sendHeld := fun _ => rfl
    sendTx := fun hsend => absurd_flag hidle hsend
    idleRx := fun _ _ => rfl
    sendDisarmed := fun _ => rfl
    armedHeld := nofun
    armedPair := nofun }

/-- As for a found port; the port it opened is in receive mode by its own registers (R152). -/
theorem sessionInv_acquireOpened {s : State} (h : SessionInv s) (hinit : s.initDone = true)
    (hfree : s.portAcquired = false) (p : Port) :
    SessionInv (acquireDone (acquireOpened p (callOpenPort (callFindPort s)))) := by
  have hidle := idle_of_free h hfree
  rw [acquireOpened_eq]
  exact { h with
    heldInit := fun _ => hinit
    sendHeld := fun _ => rfl
    sendTx := fun hsend => absurd_flag hidle hsend
    idleRx := fun _ _ => rfl
    sendDisarmed := fun _ => rfl
    armedHeld := nofun
    armedPair := nofun
    fifoBound := (callOpenPort_provider s).1 ▸ h.fifoBound }

theorem sessionInv_acquireFails {s : State} (h : SessionInv s) (hrefused : s.provider.openReply.handle = 0#32) :
    SessionInv (raiseFault .acquireFailed 0x02#8 0#32 (callOpenPort (callFindPort s))) := by
  rw [acquireFails_eq hrefused]
  exact { h with faultCode := faultBits_le .acquireFailed }

theorem sessionInv_releasePort {s : State} (h : SessionInv s) (hidle : s.sendActive = false) :
    SessionInv (releasePort s) := by
  rw [releasePort_eq]
  exact { h with
    heldInit := nofun
    sendHeld := fun hsend => absurd_flag hidle hsend
    sendTx := fun hsend => absurd_flag hidle hsend
    idleRx := nofun
    sendDisarmed := fun _ => rfl
    armedHeld := nofun
    armedPair := nofun }

/-! ### TICK -/

theorem sessionInv_setNow {s : State} (h : SessionInv s) (now : Word32) : SessionInv { s with now := now } :=
  { h with }

theorem sessionInv_tickRefresh {s : State} (h : SessionInv s) : SessionInv (tickRefresh s) := by
  rw [tickRefresh_eq]
  exact { h with }

/-- DETECT arms only over a waiting pair and never adds a byte (R173, R179). -/
theorem sessionInv_detect {s : State} (h : SessionInv s) (hheld : s.portAcquired = true)
    (hidle : s.sendActive = false) : SessionInv (detect s) := by
  obtain ⟨harmed, hkept, _, hfewer⟩ := detect_window s
  rw [detect_frame]
  exact { h with
    sendDisarmed := fun hsend => absurd_flag hidle hsend
    armedHeld := fun _ => hheld
    armedPair := fun hdetect => (hkept hdetect).symm ▸ (harmed hdetect).elim id h.armedPair
    fifoBound := hfewer.trans h.fifoBound }

/-- BEGIN_SEND creates a cursor that counts the stored bytes and the checksum (R190). -/
theorem sessionInv_beginSend {s : State} (h : SessionInv s) (hheld : s.portAcquired = true)
    (hidle : s.sendActive = false) (hdisarmed : s.winArmed = false) (k : FrameKind) :
    SessionInv (beginSend k s) := by
  have hlen := frameLen_bounds s.cfg h.legal k
  rw [beginSend_idle k s hidle]
  exact { h with
    sendHeld := fun _ => hheld
    sendTx := fun _ => rfl
    idleRx := nofun
    sendDisarmed := fun _ => hdisarmed
    cursorCount := fun _ => by bv_omega
    cursorLeft := fun _ => by bv_omega
    cursorClear := nofun }

/-- ADVANCE counts the cursor, or clears it and returns the port to receive (R194, R195). -/
theorem sessionInv_advance {s : State} (h : SessionInv s) (hsend : s.sendActive = true) :
    SessionInv (advance s) := by
  have hdisarmed := h.sendDisarmed hsend
  by_cases hlast : s.curRemaining = 1#8
  · rw [advance_last s hlast]
    exact { h with
      sendHeld := nofun
      sendTx := nofun
      idleRx := fun _ _ => rfl
      sendDisarmed := nofun
      cursorCount := nofun
      cursorLeft := nofun
      cursorClear := fun _ => ⟨rfl, rfl, rfl, rfl⟩
      armedPair := fun harmed => absurd_flag hdisarmed harmed
      fifoBound := Nat.zero_le _ }
  · have hcount := h.cursorCount hsend
    obtain ⟨hoffset, hremaining, htwo⟩ := cursor_step h hsend hlast
    rw [advance_byte s hlast]
    exact { h with
      cursorCount := fun _ => by dsimp only; omega
      cursorLeft := fun _ => by dsimp only; omega
      cursorClear := fun hidle => absurd_flag hidle hsend }

theorem sessionInv_tickDoes {s t : State} (h : SessionInv s) (hheld : s.portAcquired = true)
    (hdoes : TickDoes s t) : SessionInv t := by
  cases hdoes with
  | waits _ => exact h
  | advances hsend _ _ => exact sessionInv_advance h hsend
  | polls hidle _ => exact sessionInv_detect h hheld hidle
  | begins k hidle hkind =>
    obtain ⟨hsame, _⟩ := detect_cursor s
    obtain ⟨_, _, hdisarms, _⟩ := detect_window s
    have hdisarmed : (detect s).winArmed = false := (hdisarms (by simp [hkind])).2
    exact sessionInv_beginSend (sessionInv_detect h hheld hidle) ((detect_keeps s).portAcquired.trans hheld)
      (hsame.trans hidle) hdisarmed k

/-! ### Command words and steps -/

theorem sessionInv_commandDoes {s t : State} {opcode : Byte} {op : Word32} (h : SessionInv s)
    (hdoes : CommandDoes s opcode op t) : SessionInv t := by
  cases hdoes with
  | answers _ _ st data => exact sessionInv_answer h st data
  | faults _ _ c _ _ => exact sessionInv_raiseFault h c _ _
  | inits _ _ _ => exact sessionInv_initSession h op
  | acquiresFound p _ hinit hfree _ => exact sessionInv_acquireFound h hinit hfree p
  | acquiresOpened p _ hinit hfree _ => exact sessionInv_acquireOpened h hinit hfree p
  | acquireFails _ hrefused => exact sessionInv_acquireFails h hrefused
  | releases _ _ hidle => exact sessionInv_releasePort h hidle
  | ticks _ mask u _ _ hheld hdoes =>
    have htimed := sessionInv_tickRefresh (sessionInv_setNow h op)
    exact sessionInv_answer (sessionInv_tickDoes htimed ((tickRefresh_keeps _).portAcquired.trans hheld) hdoes) _ _

/-- A session takes no row of the bench port (log 2). -/
theorem session_takes_no_row {s : State} {i : Instr} {rest : List Input} (h : SessionInv s)
    (hinputs : s.inputs = .code (encode s.cfg i) :: rest) (hrow : isHostCode (encode s.cfg i) = false) : False :=
  absurd_flag hrow (hardwareInput_of_session h hinputs).1

/-- Settles O53: each thing that a step can do keeps the invariant, and no bench row is taken. -/
theorem everyStepKeepsTheSession : Obligations.EveryStepKeepsTheSession := by
  intro s t h hstep
  cases stepDoes_of_step hstep with
  | idles => exact h
  | resets rest hinputs => exact sessionInv_resetBlock (sessionInv_takeInput h hinputs)
  | acts a rest hinputs => exact sessionInv_applyAgent (sessionInv_takeInput h hinputs) a
  | commands opcode op rest _ hinputs hdoes => exact sessionInv_commandDoes (sessionInv_takeInput h hinputs) hdoes
  | runsRow i rest _ hinputs hrow _ => exact (session_takes_no_row h hinputs hrow).elim

end Sys2Proof
end

section
/-! PROOFS. The send over the steps of a session: which steps leave the cursor and the transmitted bytes alone,
the checksum accumulator (spec/10_state.md R31, R41), what ends a send (spec/44_frame_transmitter.md R199) and
what writes `T_LAST_TX` (R198). -/

namespace Sys2Proof

open Sys2Proof.Machine

/-! ### Steps that leave the send alone -/

/-- From `s` to `t` the cursor, the accumulator and the transmitted bytes stayed. -/
structure SendKept (s t : State) : Prop where
  sendActive : t.sendActive = s.sendActive
  curRemaining : t.curRemaining = s.curRemaining
  curOffset : t.curOffset = s.curOffset
  cksum : t.cksum = s.cksum
  tx : t.provider.tx = s.provider.tx

theorem applyAgent_sendKept (a : AgentAct) (s : State) : SendKept s (applyAgent a s) := by
  obtain ⟨htx, _⟩ := applyAgent_provider a s
  rw [applyAgent_frame]
  exact ⟨rfl, rfl, rfl, rfl, htx⟩

theorem detect_sendKept (s : State) : SendKept s (detect s) := by
  rw [detect_frame]
  exact ⟨rfl, rfl, rfl, rfl, rfl⟩

/-- Step 1 of a tick leaves the send alone (R128). -/
theorem tickRefresh_sendKept (s : State) (now : Word32) :
    SendKept s (tickRefresh { s with now := now }) := by
  rw [tickRefresh_eq]
  exact ⟨rfl, rfl, rfl, rfl, rfl⟩

/-- A command word leaves the send alone, but for a TICK that passes its checks (R193, R199). -/
theorem commandDoes_sendKept {s t : State} {opcode : Byte} {op : Word32} (hdoes : CommandDoes s opcode op t) :
    SendKept s t ∨ (opcode = 0x04#8 ∧ ∃ mask u, t = answer .ok mask u ∧
      TickDoes (tickRefresh { s with now := op }) u) := by
  cases hdoes with
  | answers _ _ _ _ => exact .inl ⟨rfl, rfl, rfl, rfl, rfl⟩
  | faults _ _ _ _ _ => exact .inl ⟨rfl, rfl, rfl, rfl, rfl⟩
  | inits _ _ _ => exact .inl ⟨rfl, rfl, rfl, rfl, rfl⟩
  | acquiresFound p _ _ _ _ =>
    rw [acquireFound_eq]
    exact .inl ⟨rfl, rfl, rfl, rfl, rfl⟩
  | acquiresOpened p _ _ _ _ =>
    rw [acquireOpened_eq]
    exact .inl ⟨rfl, rfl, rfl, rfl, (callOpenPort_provider s).2⟩
  | acquireFails _ hrefused =>
    rw [acquireFails_eq hrefused]
    exact .inl ⟨rfl, rfl, rfl, rfl, rfl⟩
  | releases _ _ _ =>
    rw [releasePort_eq]
    exact .inl ⟨rfl, rfl, rfl, rfl, rfl⟩
  | ticks _ mask u _ _ _ hdoes => exact .inr ⟨rfl, mask, u, rfl, hdoes⟩

/-! ### The checksum accumulator -/

theorem checksumInv_of_idle {s : State} (hidle : s.sendActive = false) : ChecksumInv s where
  sent hsend := absurd_flag hidle hsend
  sum hsend := absurd_flag hidle hsend

theorem checksumInv_of_sendKept {s t : State} (h : ChecksumInv s) (hkept : SendKept s t) : ChecksumInv t where
  sent hsend := by
    rw [hkept.curOffset, hkept.tx]
    exact h.sent (hkept.sendActive ▸ hsend)
  sum hsend := by
    rw [hkept.cksum, hkept.curOffset, hkept.tx]
    exact h.sum (hkept.sendActive ▸ hsend)

/-- A send begins with no byte written and the sum 0 (R190). -/
theorem checksumInv_beginSend {s : State} (k : FrameKind) (hidle : s.sendActive = false) :
    ChecksumInv (beginSend k s) := by
  rw [beginSend_idle k s hidle]
  exact ⟨fun _ => Nat.zero_le _, fun _ => by simp [sumBytes]⟩

/-- One more byte at the end of a list is one more byte of each of its tails. -/
theorem sumBytes_drop_snoc (l : List Byte) (b : Byte) (n : Nat) :
    sumBytes ((l ++ [b]).drop ((l ++ [b]).length - (n + 1))) = sumBytes (l.drop (l.length - n)) + b := by
  rw [List.length_append, List.length_singleton, Nat.add_sub_add_right,
    List.drop_append_of_le_length (Nat.sub_le _ _), sumBytes_snoc]

/-- ADVANCE adds the byte it writes to the accumulator, or ends the send (R194, R195). -/
theorem checksumInv_advance {s : State} (hsession : SessionInv s) (h : ChecksumInv s)
    (hsend : s.sendActive = true) : ChecksumInv (advance s) := by
  by_cases hlast : s.curRemaining = 1#8
  · exact checksumInv_of_idle (by rw [advance_last s hlast])
  · obtain ⟨hoffset, _⟩ := cursor_step hsession hsend hlast
    have hsent := h.sent hsend
    have hsum := h.sum hsend
    rw [advance_byte s hlast]
    refine ⟨fun _ => ?_, fun _ => ?_⟩ <;> dsimp only <;> rw [hoffset]
    · rw [List.length_append]
      exact Nat.succ_le_succ hsent
    · rw [sumBytes_drop_snoc, hsum]

theorem checksumInv_tickDoes {s t : State} (hsession : SessionInv s) (h : ChecksumInv s)
    (hdoes : TickDoes s t) : ChecksumInv t := by
  cases hdoes with
  | waits _ => exact h
  | advances hsend _ _ => exact checksumInv_advance hsession h hsend
  | polls _ _ => exact checksumInv_of_sendKept h (detect_sendKept s)
  | begins k hidle _ => exact checksumInv_beginSend k ((detect_sendKept s).sendActive.trans hidle)

theorem checksumInv_commandDoes {s t : State} {opcode : Byte} {op : Word32} (hsession : SessionInv s)
    (h : ChecksumInv s) (hdoes : CommandDoes s opcode op t) : ChecksumInv t := by
  obtain hkept | ⟨_, mask, u, rfl, htick⟩ := commandDoes_sendKept hdoes
  · exact checksumInv_of_sendKept h hkept
  · have htimed := sessionInv_tickRefresh (sessionInv_setNow hsession op)
    have hu := checksumInv_tickDoes htimed (checksumInv_of_sendKept h (tickRefresh_sendKept s op)) htick
    exact checksumInv_of_sendKept hu ⟨rfl, rfl, rfl, rfl, rfl⟩

/-- Settles O55: only a tick's BEGIN_SEND and ADVANCE touch the accumulator and the bytes. -/
theorem everyStepKeepsTheChecksum : Obligations.EveryStepKeepsTheChecksum := by
  intro s t hsession h hstep
  have htaken (rest : List Input) : ChecksumInv { s with inputs := rest } :=
    checksumInv_of_sendKept h ⟨rfl, rfl, rfl, rfl, rfl⟩
  cases stepDoes_of_step hstep with
  | idles => exact h
  | resets _ _ => exact checksumInv_of_idle rfl
  | acts a rest _ => exact checksumInv_of_sendKept (htaken rest) (applyAgent_sendKept a _)
  | commands _ _ rest _ hinputs hdoes =>
    exact checksumInv_commandDoes (sessionInv_takeInput hsession hinputs) (htaken rest) hdoes
  | runsRow _ _ _ hinputs hrow _ => exact (session_takes_no_row hsession hinputs hrow).elim

/-! ### What ends a send -/

/-- Inside a tick a send ends only in the ADVANCE that writes the checksum (R195, R199). -/
theorem tickDoes_ends {s t : State} (hsend : s.sendActive = true) (hended : t.sendActive = false)
    (hdoes : TickDoes s t) :
    s.curRemaining = 1#8 ∧ s.cfg.interByteUs ≤ s.now - s.tLastTx ∧
      t.provider.tx = s.provider.tx ++ [s.cksum] := by
  cases hdoes with
  | waits _ => exact absurd_flag hended hsend
  | advances _ hgate _ =>
    by_cases hlast : s.curRemaining = 1#8
    · exact ⟨hlast, hgate, by rw [advance_last s hlast]; rfl⟩
    · rw [advance_byte s hlast] at hended
      exact absurd_flag hended hsend
  | polls hidle _ | begins _ hidle _ => exact absurd_flag hidle hsend

theorem commandDoes_ends {s t : State} {opcode : Byte} {op : Word32} (hsend : s.sendActive = true)
    (hended : t.sendActive = false) (hdoes : CommandDoes s opcode op t) :
    opcode = 0x04#8 ∧ s.curRemaining = 1#8 ∧ s.cfg.interByteUs ≤ op - s.tLastTx ∧
      t.provider.tx = s.provider.tx ++ [s.cksum] := by
  obtain hkept | ⟨hopcode, mask, u, rfl, htick⟩ := commandDoes_sendKept hdoes
  · exact absurd_flag hended (hkept.sendActive.trans hsend)
  · have hactive := (tickRefresh_sendKept s op).sendActive.trans hsend
    have hends := tickDoes_ends (t := u) hactive hended htick
    rw [tickRefresh_eq] at hends
    exact ⟨hopcode, hends⟩

/-- Settles O58: of the steps that can end a send, a reset is one and a TICK's last ADVANCE the other. -/
theorem onlyTheChecksumOrResetEndsASend : Obligations.OnlyTheChecksumOrResetEndsASend := by
  intro s t hsession hsend hstep hended
  cases stepDoes_of_step hstep with
  | idles => exact absurd_flag hended hsend
  | resets rest hinputs => exact .inl ((resetNext_iff s).mpr ⟨rest, hinputs⟩)
  | acts a rest _ =>
    have hkept := applyAgent_sendKept a { s with inputs := rest }
    exact absurd_flag hended (hkept.sendActive.trans hsend)
  | commands opcode op rest _ hinputs hdoes =>
    obtain ⟨rfl, hlast, hgate, htx⟩ := commandDoes_ends (s := { s with inputs := rest }) hsend hended hdoes
    exact .inr ⟨op, rest, hinputs, hlast, hgate, htx⟩
  | runsRow _ _ _ hinputs hrow _ => exact (session_takes_no_row hsession hinputs hrow).elim

/-! ### What writes `T_LAST_TX` -/

/-- A tick leaves `T_LAST_TX` and the send, or it begins a send or writes a byte and records its `now`. -/
theorem tickDoes_sendTime {s t : State} (hdoes : TickDoes s t) :
    (t.tLastTx = s.tLastTx ∧ t.sendActive = s.sendActive ∧ t.provider.tx = s.provider.tx) ∨
    (t.tLastTx = s.now ∧
      ((s.sendActive = false ∧ t.sendActive = true) ∨ ∃ b, t.provider.tx = s.provider.tx ++ [b])) := by
  obtain ⟨hactive, _, _, _, htime, _, _, _, htx, _⟩ := detect_cursor s
  cases hdoes with
  | waits _ => exact .inl ⟨rfl, rfl, rfl⟩
  | advances _ _ _ =>
    by_cases hlast : s.curRemaining = 1#8
    · rw [advance_last s hlast]
      exact .inr ⟨rfl, .inr ⟨_, rfl⟩⟩
    · rw [advance_byte s hlast]
      exact .inr ⟨rfl, .inr ⟨_, rfl⟩⟩
  | polls _ _ => exact .inl ⟨htime, hactive, htx⟩
  | begins k hidle _ =>
    rw [beginSend_idle k _ (hactive.trans hidle)]
    exact .inr ⟨(detect_keeps s).now, .inl ⟨hidle, rfl⟩⟩

/-- A command word but INIT and a TICK past its checks leaves `T_LAST_TX` (log 30). -/
theorem commandDoes_tLastTx {s t : State} {opcode : Byte} {op : Word32} (hdoes : CommandDoes s opcode op t) :
    t.tLastTx = s.tLastTx ∨ (opcode = 0x01#8 ∧ t.initDone = true ∧ t.tLastTx = 0#32) ∨
      (opcode = 0x04#8 ∧ ∃ mask u, t = answer .ok mask u ∧ TickDoes (tickRefresh { s with now := op }) u) := by
  cases hdoes with
  | answers _ _ _ _ | faults _ _ _ _ _ => exact .inl rfl
  | inits _ _ _ => exact .inr (.inl ⟨rfl, rfl, rfl⟩)
  | acquiresFound p _ _ _ _ => exact .inl (by rw [acquireFound_eq])
  | acquiresOpened p _ _ _ _ => exact .inl (by rw [acquireOpened_eq])
  | acquireFails _ hrefused => exact .inl (by rw [acquireFails_eq hrefused]; rfl)
  | releases _ _ _ => exact .inl (by rw [releasePort_eq])
  | ticks _ mask u _ _ _ hdoes => exact .inr (.inr ⟨rfl, mask, u, rfl, hdoes⟩)

/-- Settles O60: every command word but INIT and a checked TICK leaves the register and the send, and a
checked TICK writes it exactly when it begins a send or writes a byte. -/
theorem sendTimeIsWrittenOnlyBySendsAndInit : Obligations.SendTimeIsWrittenOnlyBySendsAndInit := by
  intro s t opcode op rest hinputs hstep
  have hdoes := commandDoes_of_step hinputs hstep
  have htick (mask : Word32) (u : State)
      (h : TickDoes (tickRefresh { s with inputs := rest, now := op }) u) :
      (u.tLastTx = s.tLastTx ∧ u.sendActive = s.sendActive ∧ u.provider.tx = s.provider.tx) ∨
      (u.tLastTx = op ∧
        ((s.sendActive = false ∧ u.sendActive = true) ∨ ∃ b, u.provider.tx = s.provider.tx ++ [b])) := by
    have hsendTime := tickDoes_sendTime h
    rwa [tickRefresh_eq] at hsendTime
  constructor
  · obtain hkept | hinit | ⟨hopcode, mask, u, rfl, h⟩ := commandDoes_tLastTx hdoes
    · exact .inl hkept
    · exact .inr (.inl hinit)
    · obtain ⟨htime, _⟩ | hwrites := htick mask u h
      · exact .inl htime
      · exact .inr (.inr ⟨hopcode, hwrites⟩)
  · intro _ hchanged
    obtain hkept | ⟨_, mask, u, rfl, h⟩ := commandDoes_sendKept hdoes
    · exact absurd hchanged (by simp [hkept.sendActive, hkept.tx])
    · obtain ⟨_, hactive, htx⟩ | ⟨htime, _⟩ := htick mask u h
      · exact absurd hchanged (by simp [hactive, htx])
      · exact htime

end Sys2Proof
end

section
/-! PROOFS. What every step keeps outside the send: one answer for each command word (spec/30_encoding.md R80),
a trace that only grows (spec/10_state.md R44), a fault without other effect (spec/60_exceptions.md R241), the
held port (spec/42_bus_port_arbiter.md R158, R159), the phase (spec/45_session_dispatcher.md R222), and a next
state from every session. -/

namespace Sys2Proof

open Sys2Proof.Machine

/-! ### A TICK that passed its checks -/

/-- No part of a tick touches the answers, `FAULT`, the inputs, the session or the held port. -/
theorem tickDoes_keeps {s t : State} (hdoes : TickDoes s t) : SubopKeeps s t := by
  cases hdoes with
  | waits _ => exact .refl s
  | advances _ _ _ => exact advance_keeps s
  | polls _ _ => exact detect_keeps s
  | begins k _ _ => exact (detect_keeps s).trans (beginSend_keeps k _)

theorem tickDoes_records {s t : State} (hdoes : TickDoes s t) : Records tickRecordNames s t := by
  cases hdoes with
  | waits _ => exact .of_trace_eq _ rfl
  | advances _ _ _ => exact (advance_records s).mono (by decide)
  | polls _ _ => exact (detect_records s).mono (by decide)
  | begins k hidle _ =>
    have hbegin := beginSend_records_idle k ((detect_sendKept s).sendActive.trans hidle)
    exact ((detect_records s).mono (by decide)).trans (hbegin.mono (by decide))

/-! ### One answer for each command word -/

theorem commandDoes_results {s t : State} {opcode : Byte} {op : Word32} (hdoes : CommandDoes s opcode op t) :
    ∃ r, t.results = s.results ++ [r] := by
  cases hdoes with
  | answers _ _ _ _ | faults _ _ _ _ _ | inits _ _ _ => exact ⟨_, rfl⟩
  | acquiresFound p _ _ _ _ => exact ⟨_, by rw [acquireFound_eq]⟩
  | acquiresOpened p _ _ _ _ => exact ⟨_, by rw [acquireOpened_eq]⟩
  | acquireFails _ hrefused => exact ⟨_, by rw [acquireFails_eq hrefused]; rfl⟩
  | releases _ _ _ => exact ⟨_, by rw [releasePort_eq]⟩
  | ticks _ mask u _ _ _ htick =>
    refine ⟨resultWord .ok mask, ?_⟩
    rw [answer_results, (tickDoes_keeps htick).results, (tickRefresh_keeps _).results]

theorem refreshKind_keeps (k : FrameKind) (v : Snapshot) (s : State) : SubopKeeps s (refreshKind k v s) := by
  rw [refreshKind_eq]
  exact ⟨rfl, rfl, rfl, rfl, rfl, rfl, rfl⟩

/-- A row of the bench port leaves the answers, `FAULT`, the inputs, the session and the held port (log 2). -/
theorem exec_keeps_of_not_host {cfg : Config} {i : Instr} {s t : State}
    (hrow : isHostCode (encode cfg i) = false) (h : exec i s = .next t) : SubopKeeps s t := by
  cases i with
  | init _ | acquire _ | release _ | tick _ | queryBaud _ | obsRead _ => cases hrow
  | reqGps => cases h; exact beginSend_keeps .gps s
  | reqEam => cases h; exact beginSend_keeps .eam s
  | reqBinOther _ | reqOther _ _ => cases h; exact .refl s
  | respGps => cases h; exact refreshKind_keeps .gps _ s
  | respEam => cases h; exact refreshKind_keeps .eam _ s
  | refresh =>
    cases h
    rw [refresh_eq]
    exact ⟨rfl, rfl, rfl, rfl, rfl, rfl, rfl⟩
  | detect =>
    obtain rfl | rfl := exec_detect_next h
    · exact .refl t
    · exact detect_keeps s
  | beginSend k => cases h; exact beginSend_keeps k s
  | advance =>
    obtain rfl | rfl := exec_advance_next h
    · exact .refl t
    · exact advance_keeps s
  | switchTx => cases h; exact ⟨rfl, rfl, rfl, rfl, rfl, rfl, rfl⟩
  | switchRx =>
    cases h
    rw [switchRx_eq]
    exact ⟨rfl, rfl, rfl, rfl, rfl, rfl, rfl⟩
  | discardRx r =>
    cases h
    rw [discardRx_eq]
    exact ⟨rfl, rfl, rfl, rfl, rfl, rfl, rfl⟩

/-- Settles O6: a command word does one of the things of `CommandDoes`, each with one answer; a reset, an
agent and a bench row answer nothing. -/
theorem oneResultPerCommandWord : Obligations.OneResultPerCommandWord := by
  intro s t hstep
  constructor
  · intro w rest hinputs
    rw [hostWord_eta] at hinputs
    exact commandDoes_results (s := { s with inputs := rest }) (commandDoes_of_step hinputs hstep)
  · intro hnotHost
    cases stepDoes_of_step hstep with
    | idles | resets _ _ => rfl
    | acts a rest _ => rw [applyAgent_frame]
    | commands opcode op rest _ hinputs _ => exact absurd hinputs (hnotHost _ rest)
    | runsRow i rest _ _ hrow hexec => exact (exec_keeps_of_not_host hrow hexec).results

/-! ### A trace that only grows -/

theorem commandDoes_trace {s t : State} {opcode : Byte} {op : Word32} (hdoes : CommandDoes s opcode op t) :
    s.trace <+: t.trace := by
  cases hdoes with
  | answers _ _ _ _ => exact ⟨[], List.append_nil _⟩
  | faults _ _ _ _ _ | inits _ _ _ => exact ⟨_, rfl⟩
  | acquiresFound p _ _ _ _ => exact ⟨_, by rw [acquireFound_eq]⟩
  | acquiresOpened p _ _ _ _ => exact ⟨_, by rw [acquireOpened_eq]⟩
  | acquireFails _ hrefused => exact ⟨_, by rw [acquireFails_eq hrefused]; rfl⟩
  | releases _ _ _ => exact ⟨_, by rw [releasePort_eq]⟩
  | ticks _ mask u _ _ _ htick =>
    have hrefresh := (tickRefresh_records { s with now := op }).mono (more := tickRecordNames) (by decide)
    obtain ⟨new, htrace, _⟩ := hrefresh.trans (tickDoes_records htick)
    exact ⟨new, htrace.symm⟩

/-- Settles O7: a command word and a bench row append, an agent leaves the trace. -/
theorem traceIsAppendOnly : Obligations.TraceIsAppendOnly := by
  intro s t hstep hreset
  cases stepDoes_of_step hstep with
  | idles => exact ⟨[], List.append_nil _⟩
  | resets rest hinputs => simp [(resetNext_iff s).mpr ⟨rest, hinputs⟩] at hreset
  | acts a rest _ => rw [applyAgent_frame]
  | commands opcode op rest _ _ hdoes => exact commandDoes_trace (s := { s with inputs := rest }) hdoes
  | runsRow i rest _ _ hrow hexec =>
    obtain ⟨_, new, htrace, _⟩ := exec_raisesNoFault_of_not_host hrow hexec
    exact ⟨new, htrace.symm⟩

/-! ### A fault without other effect -/

theorem faultBits_eq_acquireFailed {c : FaultCode} : faultBits c = 0x05#8 ↔ c = .acquireFailed := by
  cases c <;> decide

/-- Settles O13: of what a command word can do, raising a fault is all that leaves `FAULT` not 0. -/
theorem faultingCommandChangesOnlyFaultAndTrace : Obligations.FaultingCommandChangesOnlyFaultAndTrace := by
  intro s t opcode op rest hinputs hfault hstep hfaulted
  cases commandDoes_of_step hinputs hstep with
  | answers _ _ _ _ | inits _ _ _ => exact absurd hfault hfaulted
  | faults _ _ c _ hcode =>
    refine ⟨faultBits_le c, rfl, fun _ => rfl, fun hfailed => absurd (faultBits_eq_acquireFailed.mp hfailed) hcode⟩
  | acquiresFound p _ _ _ _ =>
    rw [acquireFound_eq] at hfaulted
    exact absurd hfault hfaulted
  | acquiresOpened p _ _ _ _ =>
    rw [acquireOpened_eq] at hfaulted
    exact absurd hfault hfaulted
  | acquireFails _ hrefused =>
    rw [acquireFails_eq hrefused]
    exact ⟨faultBits_le .acquireFailed, rfl, fun hother => absurd rfl hother, fun _ => rfl⟩
  | releases _ _ _ =>
    rw [releasePort_eq] at hfaulted
    exact absurd hfault hfaulted
  | ticks _ mask u _ _ _ htick =>
    exact absurd (((tickDoes_keeps htick).fault.trans (tickRefresh_keeps _).fault).trans hfault) hfaulted

/-! ### The held port -/

/-- The port, the provider's ports and calls, and the block's copies of mode, baud and handle stayed. -/
structure PortKept (s t : State) : Prop where
  portBaud : t.portBaud = s.portBaud
  portHandle : t.portHandle = s.portHandle
  portMode : t.portMode = s.portMode
  calls : t.provider.calls = s.provider.calls
  ports : t.provider.ports = s.provider.ports

/-- One `SetMode` at the held port, of mode `m`, and nothing else of the port (R155, R156). -/
structure PortSwitched (m : PortMode) (s t : State) : Prop where
  portBaud : t.portBaud = s.portBaud
  portHandle : t.portHandle = s.portHandle
  portMode : t.portMode = m
  calls : t.provider.calls = s.provider.calls ++ [.setMode m]
  ports : t.provider.ports = s.provider.ports.map (portSetMode s.portHandle m)

/-- A tick switches the held port to transmit where it begins a send, to receive where it ends one, and
leaves it otherwise (R159). -/
theorem tickDoes_port {s t : State} (hdoes : TickDoes s t) :
    PortKept s t ∨ (PortSwitched .tx s t ∧ s.sendActive = false ∧ t.sendActive = true) ∨
      (PortSwitched .rx s t ∧ s.sendActive = true ∧ t.sendActive = false) := by
  cases hdoes with
  | waits _ => exact .inl ⟨rfl, rfl, rfl, rfl, rfl⟩
  | advances hsend _ _ =>
    by_cases hlast : s.curRemaining = 1#8
    · rw [advance_last s hlast]
      exact .inr (.inr ⟨⟨rfl, rfl, rfl, rfl, rfl⟩, hsend, rfl⟩)
    · rw [advance_byte s hlast]
      exact .inl ⟨rfl, rfl, rfl, rfl, rfl⟩
  | polls _ _ =>
    rw [detect_frame]
    exact .inl ⟨rfl, rfl, rfl, rfl, rfl⟩
  | begins k hidle _ =>
    rw [beginSend_idle k _ ((detect_sendKept s).sendActive.trans hidle), detect_frame]
    exact .inr (.inl ⟨⟨rfl, rfl, rfl, rfl, rfl⟩, hidle, rfl⟩)

/-- A tick writes at most one byte, in transmit mode (R64, R194, R195). -/
theorem tickDoes_tx {s t : State} (h : SessionInv s) (hdoes : TickDoes s t) :
    t.provider.tx = s.provider.tx ∨ (s.portMode = .tx ∧ ∃ b, t.provider.tx = s.provider.tx ++ [b]) := by
  have hsendTime := tickDoes_sendTime hdoes
  cases hdoes with
  | waits _ => exact .inl rfl
  | advances hsend _ _ =>
    obtain ⟨_, _, htx⟩ | ⟨_, ⟨hidle, _⟩ | hbyte⟩ := hsendTime
    · exact .inl htx
    · exact absurd_flag hidle hsend
    · exact .inr ⟨h.sendTx hsend, hbyte⟩
  | polls _ _ => exact .inl (detect_sendKept s).tx
  | begins k hidle _ =>
    rw [beginSend_idle k _ ((detect_sendKept s).sendActive.trans hidle)]
    exact .inl (detect_sendKept s).tx

/-- A command word other than ACQUIRE and RELEASE leaves the port alone, but for a checked TICK (R158). -/
theorem commandDoes_port {s t : State} {opcode : Byte} {op : Word32} (hdoes : CommandDoes s opcode op t)
    (hacquire : opcode ≠ 0x02#8) (hrelease : opcode ≠ 0x03#8) :
    PortKept s t ∨ (opcode = 0x04#8 ∧
      ((PortSwitched .tx s t ∧ s.sendActive = false ∧ t.sendActive = true) ∨
        (PortSwitched .rx s t ∧ s.sendActive = true ∧ t.sendActive = false))) := by
  cases hdoes with
  | answers _ _ _ _ | faults _ _ _ _ _ | inits _ _ _ => exact .inl ⟨rfl, rfl, rfl, rfl, rfl⟩
  | acquiresFound _ _ _ _ _ | acquiresOpened _ _ _ _ _ | acquireFails _ _ => exact absurd rfl hacquire
  | releases _ _ _ => exact absurd rfl hrelease
  | ticks _ mask u _ _ _ htick =>
    have hport := tickDoes_port htick
    rw [tickRefresh_eq] at hport
    obtain ⟨hbaud, hhandle, hmode, hcalls, hports⟩ | ⟨⟨hbaud, hhandle, hmode, hcalls, hports⟩, hsend⟩ |
      ⟨⟨hbaud, hhandle, hmode, hcalls, hports⟩, hsend⟩ := hport
    · exact .inl ⟨hbaud, hhandle, hmode, hcalls, hports⟩
    · exact .inr ⟨rfl, .inl ⟨⟨hbaud, hhandle, hmode, hcalls, hports⟩, hsend⟩⟩
    · exact .inr ⟨rfl, .inr ⟨⟨hbaud, hhandle, hmode, hcalls, hports⟩, hsend⟩⟩

theorem commandDoes_tx {s t : State} {opcode : Byte} {op : Word32} (h : SessionInv s)
    (hdoes : CommandDoes s opcode op t) :
    t.provider.tx = s.provider.tx ∨
      (opcode = 0x04#8 ∧ s.portMode = .tx ∧ ∃ b, t.provider.tx = s.provider.tx ++ [b]) := by
  obtain hkept | ⟨hopcode, mask, u, rfl, htick⟩ := commandDoes_sendKept hdoes
  · exact .inl hkept.tx
  · have htx := tickDoes_tx (sessionInv_tickRefresh (sessionInv_setNow h op)) htick
    rw [tickRefresh_eq] at htx
    exact htx.imp_right fun hbyte => ⟨hopcode, hbyte⟩

/-- Settles O51: the two switches of `commandDoes_port` are the statement's two cases. -/
theorem portIsChangedOnlyByTheArbiter : Obligations.PortIsChangedOnlyByTheArbiter := by
  intro s t opcode op rest h hinputs hstep
  have hdoes := commandDoes_of_step hinputs hstep
  have htaken := sessionInv_takeInput h hinputs
  refine ⟨fun hacquire hrelease => ?_, commandDoes_tx (s := { s with inputs := rest }) htaken hdoes⟩
  obtain hkept | ⟨hopcode, ⟨hswitched, hbegun⟩ | ⟨hswitched, hended⟩⟩ := commandDoes_port hdoes hacquire hrelease
  · exact ⟨hkept.portBaud, hkept.portHandle, .inl ⟨hkept.calls, hkept.ports, hkept.portMode⟩⟩
  · exact ⟨hswitched.portBaud, hswitched.portHandle, .inr ⟨hopcode, .tx, hswitched.calls, hswitched.ports,
      hswitched.portMode, .inl ⟨rfl, hbegun⟩⟩⟩
  · exact ⟨hswitched.portBaud, hswitched.portHandle, .inr ⟨hopcode, .rx, hswitched.calls, hswitched.ports,
      hswitched.portMode, .inr ⟨rfl, hended⟩⟩⟩

/-! ### The phase -/

theorem phaseMayChange_refl (p : Phase) : phaseMayChange p p = true := by
  cases p <;> rfl

theorem phaseMayChange_faulted (p : Phase) : phaseMayChange p .faulted = true := by
  cases p <;> rfl

theorem phase_detached {s : State} (hfault : s.fault = 0#8) (hinit : s.initDone = true)
    (hfree : s.portAcquired = false) : phase s = .detached := by
  simp [phase, hfault, hinit, hfree]

/-- The phase of a held port: `SENDING`, `ARMING` or `LISTENING` (R39). -/
theorem phase_held {s : State} (hfault : s.fault = 0#8) (hinit : s.initDone = true)
    (hheld : s.portAcquired = true) :
    phase s = if s.sendActive then .sending else if s.winArmed then .arming else .listening := by
  simp [phase, hfault, hinit, hheld]

theorem phase_raiseFault (c : FaultCode) (opcode : Byte) (t : Word32) (s : State) :
    phase (raiseFault c opcode t s) = .faulted := by
  have hcode : faultBits c ≠ 0#8 := by cases c <;> decide
  exact if_pos hcode

/-- Inside a tick the phase changes among the three of a held port, from `ARMING` to `SENDING` and from there
to `LISTENING` (R222). -/
theorem tickDoes_phase {s t : State} (h : SessionInv s) (hfault : s.fault = 0#8) (hinit : s.initDone = true)
    (hheld : s.portAcquired = true) (hdoes : TickDoes s t) : phaseMayChange (phase s) (phase t) = true := by
  have hkeeps := tickDoes_keeps hdoes
  rw [phase_held hfault hinit hheld, phase_held (hkeeps.fault.trans hfault) (hkeeps.initDone.trans hinit)
    (hkeeps.portAcquired.trans hheld)]
  cases hdoes with
  | waits _ => exact phaseMayChange_refl _
  | advances hsend _ _ =>
    by_cases hlast : s.curRemaining = 1#8
    · rw [advance_last s hlast]
      simp [hsend, h.sendDisarmed hsend, phaseMayChange]
    · rw [advance_byte s hlast]
      exact phaseMayChange_refl _
  | polls hidle _ =>
    rw [(detect_sendKept s).sendActive, hidle]
    cases s.winArmed <;> cases (detect s).winArmed <;> rfl
  | begins k hidle hkind =>
    obtain ⟨_, _, hdisarms, _⟩ := detect_window s
    have harmed : s.winArmed = true := (hdisarms (by simp [hkind])).1
    simp [beginSend_sendActive, hidle, harmed, phaseMayChange]

theorem commandDoes_phase {s t : State} {opcode : Byte} {op : Word32} (h : SessionInv s)
    (hdoes : CommandDoes s opcode op t) : phaseMayChange (phase s) (phase t) = true := by
  cases hdoes with
  | answers _ _ _ _ => exact phaseMayChange_refl _
  | faults _ _ c _ _ =>
    rw [phase_raiseFault]
    exact phaseMayChange_faulted _
  | inits _ hfault hfree =>
    have hdetached : phase (initSession op s) = .detached := phase_detached hfault rfl hfree
    rw [hdetached]
    cases hinit : s.initDone
    · simp [phase, hfault, hinit, phaseMayChange]
    · rw [phase_detached hfault hinit hfree]
      rfl
  | acquiresFound p hfault hinit hfree _ =>
    rw [acquireFound_eq, phase_detached hfault hinit hfree]
    simp [phase, hfault, hinit, idle_of_free h hfree, phaseMayChange]
  | acquiresOpened p hfault hinit hfree _ =>
    rw [acquireOpened_eq, phase_detached hfault hinit hfree]
    simp [phase, hfault, hinit, idle_of_free h hfree, phaseMayChange]
  | acquireFails _ _ =>
    rw [phase_raiseFault]
    exact phaseMayChange_faulted _
  | releases hfault hheld hidle =>
    have hinit := h.heldInit hheld
    have hdetached : phase (releasePort s) = .detached := by simp [releasePort_eq, phase, hfault, hinit]
    rw [hdetached, phase_held hfault hinit hheld, hidle]
    cases s.winArmed <;> rfl
  | ticks _ mask u hfault hinit hheld htick =>
    have hphase := tickDoes_phase (sessionInv_tickRefresh (sessionInv_setNow h op))
      ((tickRefresh_keeps _).fault.trans hfault) ((tickRefresh_keeps _).initDone.trans hinit)
      ((tickRefresh_keeps _).portAcquired.trans hheld) htick
    rw [tickRefresh_eq] at hphase
    exact hphase

/-- Settles O57: agents leave the phase, and a command word moves it as `commandDoes_phase` says. -/
theorem phaseChangesOnlyAsListed : Obligations.PhaseChangesOnlyAsListed := by
  intro s t h hstep hreset
  cases stepDoes_of_step hstep with
  | idles => exact phaseMayChange_refl _
  | resets rest hinputs => simp [(resetNext_iff s).mpr ⟨rest, hinputs⟩] at hreset
  | acts a rest _ =>
    rw [applyAgent_frame]
    exact phaseMayChange_refl _
  | commands opcode op rest _ hinputs hdoes =>
    exact commandDoes_phase (s := { s with inputs := rest }) (sessionInv_takeInput h hinputs) hdoes
  | runsRow _ _ _ hinputs hrow _ => exact (session_takes_no_row h hinputs hrow).elim

/-! ### A next state from every session -/

/-- Every host command but TICK completes in every state. -/
theorem exec_host_completes {opcode : Byte} {op : Word32} {i : Instr} (s : State)
    (hcommand : hostCommand opcode op = some i) (hnotTick : i ≠ .tick op) : ∃ t, exec i s = .next t := by
  unfold hostCommand at hcommand
  split_ifs at hcommand <;> cases hcommand
  · change ∃ t, execInit op s = _
    unfold execInit answerFaulted
    split_ifs <;> exact ⟨_, rfl⟩
  · change ∃ t, execAcquire op s = _
    unfold execAcquire answerFaulted
    split_ifs
    iterate 4 exact ⟨_, rfl⟩
    split
    · exact ⟨_, rfl⟩
    · split <;> exact ⟨_, rfl⟩
  · change ∃ t, execRelease op s = _
    unfold execRelease answerFaulted
    split_ifs <;> exact ⟨_, rfl⟩
  · exact absurd rfl hnotTick
  · exact ⟨_, queryBaudAnswersInEveryPhase s op⟩
  · change ∃ t, execObsRead op s = _
    unfold execObsRead answerFaulted
    split
    · split_ifs <;> exact ⟨_, rfl⟩
    · split <;> exact ⟨_, rfl⟩

/-- A TICK completes from every cursor that R41 and R61 allow: it fails a check, or its body runs. -/
theorem exec_tick_completes {s : State} (hlegal : configLegal s.cfg = true) (hcursor : cursorInFrame s)
    (now : Word32) : ∃ t, exec (.tick now) s = .next t := by
  change ∃ t, execTick now s = _
  unfold execTick answerFaulted
  split_ifs
  iterate 3 exact ⟨_, rfl⟩
  exact ⟨_, tickBody_steps (s := { s with now := now }) hlegal hcursor⟩

theorem step_host_completes {s : State} {opcode : Byte} {op : Word32} {rest : List Input} (h : SessionInv s)
    (hinputs : s.inputs = .code (hostWord opcode op) :: rest) : ∃ t, step s = .next t := by
  rw [step_host s opcode op rest h.legal hinputs]
  cases hcommand : hostCommand opcode op with
  | none => exact ⟨_, rfl⟩
  | some i =>
    by_cases htick : i = .tick op
    · rw [htick]
      have htaken := sessionInv_takeInput h hinputs
      exact exec_tick_completes htaken.legal (cursorInFrame_of_session htaken) op
    · exact exec_host_completes _ hcommand htick

/-- Settles O56, by the kind of the next input; the bench port's are excluded. -/
theorem noStepStopsInASession : Obligations.NoStepStopsInASession := by
  intro s h
  cases hinputs : s.inputs with
  | nil => exact ⟨s, by simp [step, h.legal, hinputs]⟩
  | cons x rest =>
    cases x with
    | reset => exact ⟨_, step_reset h.legal hinputs⟩
    | agent a => exact ⟨_, step_agent h.legal hinputs⟩
    | code c =>
      obtain ⟨opcode, op, rfl⟩ | hbench := hostWord_or_bench c
      · exact step_host_completes h hinputs
      · exact absurd_flag hbench (hardwareInput_of_session h hinputs).1

/-- Settles O4: a legal configuration, an input at hand and an accepted code leave `step` its one branch. -/
theorem stepRunsTheDecodedInstruction : Obligations.StepRunsTheDecodedInstruction := by
  intro s c i rest hlegal hinputs hdecode
  simp [step, hlegal, hinputs, hdecode]

end Sys2Proof
end

section
/-! PROOFS. The frame buffers: REFRESH and the response rows byte by byte (spec/41_frame_codec.md R110, R111,
R120 to R124), INIT (spec/45_session_dispatcher.md R210), and what every step keeps of headers, stop bytes and
bytes never written (R38, R88, R124 to R126). -/

namespace Sys2Proof

open Sys2Proof.Machine

/-! ### A refresh of one kind, byte by byte -/

/-- ComposeGPS writes the rows of Table G (R111, R121). -/
theorem rd_composeGps_table (cfg : Config) (b : Buf) (v : Snapshot) (m : Mem) (j : Byte) :
    rd (composeGps cfg b v m) b j = ((gpsTable cfg v).lookup j).getD (rd m b j) := by
  rw [rd_composeGps, if_neg (not_not_intro rfl)]
  by_cases hheld : v.fix = false ∧ cfg.gpsNofixHold = true
  · have hheld' : (!v.fix && cfg.gpsNofixHold) = true := by simp [hheld]
    simp only [gpsTable, if_pos hheld, if_pos hheld', List.cons_append, List.nil_append, lookup_row, List.lookup_nil,
      Option.getD_none]
  · have hheld' : ¬ (!v.fix && cfg.gpsNofixHold) = true := by simpa using hheld
    simp only [gpsTable, if_neg hheld, if_neg hheld', List.cons_append, List.nil_append, lookup_row, List.lookup_nil,
      Option.getD_none]

/-- ComposeEAM writes the rows of Table E (R122, R124). -/
theorem rd_composeEam_table (cfg : Config) (b : Buf) (v : Snapshot) (m : Mem) (j : Byte) :
    rd (composeEam cfg b v m) b j = ((eamTable cfg v).lookup j).getD (rd m b j) := by
  rw [rd_composeEam, if_neg (not_not_intro rfl)]
  simp only [eamTable, lookup_row, List.lookup_nil, Option.getD_none]
  by_cases hclear : j = warnOff cfg ∨ j = 4#8 ∨ j = 5#8
  · rw [if_pos hclear]
    rcases hclear with rfl | rfl | rfl <;> simp
  · obtain ⟨hwarn, h4, h5⟩ : j ≠ warnOff cfg ∧ j ≠ 4#8 ∧ j ≠ 5#8 := by simpa [not_or] using hclear
    simp only [if_neg hclear, if_neg hwarn, if_neg h4, if_neg h5]
    by_cases h20 : j = 20#8
    · simp [h20]
    · by_cases h30 : j = 30#8 <;> by_cases h21 : j = 21#8 <;> simp_all

theorem rd_compose_table (cfg : Config) (k : FrameKind) (b : Buf) (v : Snapshot) (m : Mem) (j : Byte) :
    rd (compose cfg k b v m) b j = ((frameTable cfg v k).lookup j).getD (rd m b j) := by
  cases k with
  | gps => exact rd_composeGps_table cfg b v m j
  | eam => exact rd_composeEam_table cfg b v m j

/-- A refresh that the policy lets write composes its kind's frame from the snapshot (R110). -/
theorem rd_refreshKind_written {s : State} {k : FrameKind} (hmay : mayRefresh s k) (b : Buf) (j : Byte) :
    rd (refreshKind k s.snapshot s).mem b j = refreshedByte s k b j := by
  rw [refreshKind_mem, if_pos ((refreshWrites_iff s k).mpr hmay), refreshTarget_eq, refreshedByte]
  split_ifs <;> simp_all [rd_compose_table, rd_compose_other]

/-- A refresh writes no buffer of the other kind, and none at all where the policy forbids it (R110). -/
theorem rd_refreshKind_unwritten {s : State} {k : FrameKind} {b : Buf} (v : Snapshot)
    (hnot : ¬ (bufKind b = k ∧ mayRefresh s k)) (j : Byte) :
    rd (refreshKind k v s).mem b j = rd s.mem b j := by
  rw [refreshKind_mem]
  split_ifs with hwrites
  · have hb : b ≠ refreshTarget s k := fun h =>
      hnot ⟨h ▸ bufKind_refreshTarget s k, (refreshWrites_iff s k).mp hwrites⟩
    exact rd_compose_other _ _ _ _ _ _ _ hb
  · rfl

/-- A refresh of one kind reads of the other nothing but the configuration, the send and the snapshot. -/
theorem refreshedByte_setMem {s : State} {m : Mem} {b : Buf} {j : Byte} (k : FrameKind)
    (hsame : rd m b j = rd s.mem b j) : refreshedByte { s with mem := m } k b j = refreshedByte s k b j := by
  simp only [refreshedByte, hsame]

/-- Both kinds in turn: each buffer gets its own kind's table, or nothing (R110). -/
theorem rd_refresh {s : State} (b : Buf) (j : Byte) :
    (mayRefresh s (bufKind b) → rd (refresh s).mem b j = refreshedByte s (bufKind b) b j) ∧
      (¬ mayRefresh s (bufKind b) → rd (refresh s).mem b j = rd s.mem b j) := by
  rw [refresh_eq, refreshKind_eq .gps]
  generalize hm : (refreshKind .gps s.snapshot s).mem = m
  let s1 : State := { s with mem := m }
  cases hkind : bufKind b with
  | gps =>
    have hlater : rd (refreshKind .eam s1.snapshot s1).mem b j = rd m b j :=
      rd_refreshKind_unwritten (s := s1) _ (by simp [hkind]) j
    refine ⟨fun hmay => hlater.trans ?_, fun hnot => hlater.trans ?_⟩ <;> rw [← hm]
    · exact rd_refreshKind_written hmay b j
    · exact rd_refreshKind_unwritten _ (fun h => hnot h.2) j
  | eam =>
    have hearlier : rd m b j = rd s.mem b j := by
      rw [← hm]
      exact rd_refreshKind_unwritten _ (by simp [hkind]) j
    refine ⟨fun hmay => ?_, fun hnot => ?_⟩
    · exact (rd_refreshKind_written (s := s1) hmay b j).trans (refreshedByte_setMem .eam hearlier)
    · exact (rd_refreshKind_unwritten (s := s1) _ (fun h => hnot h.2) j).trans hearlier

theorem refreshMask_bits (gps eam : Bool) :
    (refreshMask gps eam).getLsbD 0 = gps ∧ (refreshMask gps eam).getLsbD 1 = eam ∧ refreshMask gps eam < 4#8 := by
  revert gps eam
  decide

/-- Settles O30: the whole next state is `refresh_eq`, its bytes are `rd_refresh`. -/
theorem refreshWritesTablesGAndE : Obligations.RefreshWritesTablesGAndE := by
  intro s
  obtain ⟨hgps, heam, hbound⟩ := refreshMask_bits (refreshWrites s .gps) (refreshWrites s .eam)
  refine ⟨(refresh s).mem, _, (exec_refresh s).trans (congrArg Host.Outcome.next (refresh_eq s)), ?_, ?_, hbound,
    rd_refresh⟩
  · rw [hgps, refreshWrites_iff]
  · rw [heam, refreshWrites_iff]

/-- Settles O31: a response row is a refresh of its own kind alone (log 4). -/
theorem responseRowsComposeTheirFrame : Obligations.ResponseRowsComposeTheirFrame := by
  intro s k i hrow
  have hexec : exec i s = .next (refreshKind k s.snapshot s) := by
    obtain ⟨rfl, rfl⟩ | ⟨rfl, rfl⟩ := hrow <;> rfl
  refine ⟨(refreshKind k s.snapshot s).mem, hexec.trans (congrArg Host.Outcome.next (refreshKind_eq k _ s)),
    fun b j => ⟨fun _ hmay => rd_refreshKind_written hmay b j, fun hnot => rd_refreshKind_unwritten _ hnot j⟩⟩

/-! ### INIT, byte by byte -/

/-- INIT of one buffer writes the header, the stop byte and zeros between (R210). -/
theorem rd_initBuf_own (cfg : Config) (b : Buf) (m : Mem) (j : Byte) :
    rd (initBuf cfg b m) b j =
      if constantOffset cfg (bufKind b) j = true then initialByte cfg (bufKind b) j
      else if j.toNat < (frameLen cfg (bufKind b)).toNat then 0x00#8
      else rd m b j := by
  rw [rd_initBuf, if_neg (not_not_intro rfl), initialByte]
  by_cases hstop : j = frameLen cfg (bufKind b) - 1#8
  · simp [constantOffset, ← hstop]
  · by_cases htext : j = textOff cfg
    · simp [constantOffset, hstop, ← htext]
    · by_cases h1 : j = 1#8
      · simp [constantOffset, h1]
      · by_cases h0 : j = 0#8 <;> simp [constantOffset, hstop, htext, h1, h0]

theorem rd_initBuf_other (cfg : Config) {b c : Buf} (hne : c ≠ b) (m : Mem) (j : Byte) :
    rd (initBuf cfg b m) c j = rd m c j := by
  rw [rd_initBuf, if_pos hne]

/-- INIT of all four buffers does to each what INIT of that buffer does (R210). -/
theorem rd_initBufs (cfg : Config) (m : Mem) (b : Buf) (j : Byte) :
    rd (initBufs cfg m) b j =
      if constantOffset cfg (bufKind b) j = true then initialByte cfg (bufKind b) j
      else if j.toNat < (frameLen cfg (bufKind b)).toNat then 0x00#8
      else rd m b j := by
  rcases b with ⟨⟨⟩⟩ | ⟨⟨⟩⟩ <;> simp [initBufs, rd_initBuf_own, rd_initBuf_other]

/-- Under a legal configuration the four header and stop offsets are distinct (R9, R87). -/
theorem initialByte_values {cfg : Config} (hlegal : configLegal cfg = true) (k : FrameKind) :
    initialByte cfg k 0#8 = 0x7C#8 ∧ initialByte cfg k 1#8 = classId cfg k ∧
      initialByte cfg k (textOff cfg) = textId cfg k ∧ initialByte cfg k (frameLen cfg k - 1#8) = 0x7D#8 := by
  have hlen := frameLen_bounds cfg hlegal k
  have hstop0 : 0#8 ≠ frameLen cfg k - 1#8 := by bv_omega
  have hstop1 : 1#8 ≠ frameLen cfg k - 1#8 := by bv_omega
  obtain ⟨htext, _⟩ | ⟨htext, _⟩ := textOff_cases cfg
  · have hstop2 : 2#8 ≠ frameLen cfg k - 1#8 := by bv_omega
    simp [initialByte, htext, hstop0, hstop1, hstop2, startByte, stopByte]
  · have hstop3 : 3#8 ≠ frameLen cfg k - 1#8 := by bv_omega
    simp [initialByte, htext, hstop0, hstop1, hstop3, startByte, stopByte]

/-- A header or stop offset lies in the frame. -/
theorem constantOffset_lt {cfg : Config} {k : FrameKind} {i : Byte} (hlegal : configLegal cfg = true)
    (hi : constantOffset cfg k i = true) : i < frameLen cfg k := by
  have hlen := frameLen_bounds cfg hlegal k
  rw [BitVec.lt_def]
  obtain ⟨hheader, _⟩ | hstop := constantOffset_cases hlegal hi <;> omega

/-- Settles O16: `rd_initBufs` at the four constant offsets, between them, and past the frame. -/
theorem initWritesHeadersAndClearsPayload : Obligations.InitWritesHeadersAndClearsPayload := by
  intro s cfg hlegal hfault hfree
  have hexec : exec (.init cfg) s = .next (initSession cfg s) := by
    change execInit cfg s = _
    simp [execInit, hfault, hfree]
  refine ⟨initBufs s.cfg s.mem, hexec, fun b => ?_⟩
  obtain ⟨h0, h1, htext, hstop⟩ := initialByte_values hlegal (bufKind b)
  have hconstant (i : Byte) (hi : constantOffset s.cfg (bufKind b) i = true) :
      rd (initBufs s.cfg s.mem) b i = initialByte s.cfg (bufKind b) i := by
    rw [rd_initBufs, if_pos hi]
  refine ⟨(hconstant _ (by simp [constantOffset])).trans h0, (hconstant _ (by simp [constantOffset])).trans h1,
    (hconstant _ (by simp [constantOffset])).trans htext, (hconstant _ (by simp [constantOffset])).trans hstop,
    fun i hi hpayload => ?_, fun i hi => ?_⟩
  · rw [rd_initBufs, if_neg (by simp [hpayload]), if_pos (BitVec.lt_def.mp hi)]
  · have hnot : ¬ constantOffset s.cfg (bufKind b) i = true := fun hconst =>
      BitVec.not_le.mpr (constantOffset_lt hlegal hconst) hi
    rw [rd_initBufs, if_neg hnot, if_neg (Nat.not_lt.mpr (BitVec.le_def.mp hi))]

/-! ### The invariant of the frame buffers -/

/-- The buffers, the configuration and `INIT_DONE` stayed. -/
structure FramesKept (s t : State) : Prop where
  cfg : t.cfg = s.cfg
  initDone : t.initDone = s.initDone
  mem : t.mem = s.mem

theorem frameInv_of_kept {s t : State} (h : FrameInv s) (hkept : FramesKept s t) : FrameInv t where
  canonical := hkept.mem ▸ h.canonical
  headers := by
    rw [hkept.cfg, hkept.initDone, hkept.mem]
    exact h.headers
  zeros := by
    rw [hkept.cfg, hkept.mem]
    exact h.zeros

/-- A compose writes 0x00 to a byte that no table row gives a value (R124), or leaves it. -/
theorem rd_compose_zero {cfg : Config} {k : FrameKind} {b : Buf} {m : Mem} {j : Byte} (v : Snapshot)
    (hpayload : payloadOffset k j = false) (hzero : rd m b j = 0x00#8) : rd (compose cfg k b v m) b j = 0x00#8 := by
  cases k with
  | gps => exact (rd_composeGps_unwritten cfg b b v m hpayload).trans hzero
  | eam =>
    by_cases hclear : j = warnOff cfg ∨ j = 4#8 ∨ j = 5#8
    · refine (rd_composeEam cfg b b v m j).trans ?_
      rw [if_neg (not_not_intro rfl), if_pos hclear]
    · exact (rd_composeEam_unwritten cfg b b v m hpayload hclear).trans hzero

theorem frameInv_refreshKind {s : State} (h : FrameInv s) (hlegal : configLegal s.cfg = true) (k : FrameKind)
    (v : Snapshot) : FrameInv (refreshKind k v s) := by
  have hzero (b : Buf) (i : Byte) (hconst : constantOffset s.cfg (bufKind b) i = false)
      (hpayload : payloadOffset (bufKind b) i = false) : rd (refreshKind k v s).mem b i = 0x00#8 := by
    have hold := h.zeros b i hconst hpayload
    rw [refreshKind_mem]
    split
    · by_cases hb : b = refreshTarget s k
      · rw [hb, bufKind_refreshTarget] at hpayload
        subst hb
        exact rd_compose_zero v hpayload hold
      · exact (rd_compose_other _ _ _ _ _ _ _ hb).trans hold
    · exact hold
  have hheader (hinit : s.initDone = true) (b : Buf) (i : Byte)
      (hconst : constantOffset s.cfg (bufKind b) i = true) :
      rd (refreshKind k v s).mem b i = initialByte s.cfg (bufKind b) i :=
    (rd_refreshKind_constantOffset k v hlegal hconst).trans (h.headers hinit b i hconst)
  have hcanonical := memWf_refreshKind k v s h.canonical
  rw [refreshKind_eq]
  exact ⟨hcanonical, hheader, hzero⟩

theorem frameInv_refresh {s : State} (h : FrameInv s) (hlegal : configLegal s.cfg = true) :
    FrameInv (refresh s) := by
  have hgps := frameInv_refreshKind h hlegal .gps s.snapshot
  have hcfg : (refreshKind .gps s.snapshot s).cfg = s.cfg := (refreshKind_keeps .gps s.snapshot s).cfg
  have heam := frameInv_refreshKind hgps (hcfg ▸ hlegal) .eam s.snapshot
  exact frameInv_of_kept heam ⟨rfl, rfl, rfl⟩

theorem frameInv_tickRefresh {s : State} (h : FrameInv s) (hlegal : configLegal s.cfg = true) :
    FrameInv (tickRefresh s) := by
  unfold tickRefresh
  split
  · exact frameInv_of_kept (frameInv_refresh h hlegal) ⟨rfl, rfl, rfl⟩
  · exact h

/-- BEGIN_SEND's copy takes a buffer over another of its own kind (R192). -/
theorem frameInv_beginSend {s : State} (h : FrameInv s) (k : FrameKind) : FrameInv (beginSend k s) := by
  cases hactive : s.sendActive
  · rw [beginSend_idle k s hactive]
    refine ⟨memWf_swapIn _ _ _ h.canonical, fun hinit b i hconst => ?_, fun b i hconst hpayload => ?_⟩ <;>
      dsimp only at hconst ⊢ <;> rw [rd_swapIn] <;> split_ifs with hcopied
    · obtain ⟨_, rfl, _⟩ := hcopied
      exact h.headers hinit (.next k) i hconst
    · exact h.headers hinit b i hconst
    · obtain ⟨_, rfl, _⟩ := hcopied
      exact h.zeros (.next k) i hconst hpayload
    · exact h.zeros b i hconst hpayload
  · rw [beginSend_rejected k s hactive]
    exact frameInv_of_kept h ⟨rfl, rfl, rfl⟩

/-- INIT writes what the invariant asks of the headers, and zeros everywhere else in the frames (R210). -/
theorem frameInv_initSession {s : State} (h : FrameInv s) (handle : Word32) : FrameInv (initSession handle s) where
  canonical := memWf_initBufs _ _ h.canonical
  headers _ b i hconst := (rd_initBufs s.cfg s.mem b i).trans (if_pos hconst)
  zeros b i hconst hpayload := by
    have hconst' : ¬ constantOffset s.cfg (bufKind b) i = true := Bool.eq_false_iff.mp hconst
    refine (rd_initBufs s.cfg s.mem b i).trans ?_
    rw [if_neg hconst', h.zeros b i hconst hpayload, ite_self]

theorem frameInv_resetBlock (s : State) : FrameInv (resetBlock s) where
  canonical := memWf_reset
  headers := nofun
  zeros _ _ _ _ := rfl

theorem detect_framesKept (s : State) : FramesKept s (detect s) := by
  rw [detect_frame]
  exact ⟨rfl, rfl, rfl⟩

theorem advance_framesKept (s : State) : FramesKept s (advance s) := by
  by_cases hlast : s.curRemaining = 1#8
  · rw [advance_last s hlast]
    exact ⟨rfl, rfl, rfl⟩
  · rw [advance_byte s hlast]
    exact ⟨rfl, rfl, rfl⟩

theorem frameInv_tickDoes {s t : State} (h : FrameInv s) (hdoes : TickDoes s t) : FrameInv t := by
  cases hdoes with
  | waits _ => exact h
  | advances _ _ _ => exact frameInv_of_kept h (advance_framesKept s)
  | polls _ _ => exact frameInv_of_kept h (detect_framesKept s)
  | begins k _ _ => exact frameInv_beginSend (frameInv_of_kept h (detect_framesKept s)) k

theorem frameInv_commandDoes {s t : State} {opcode : Byte} {op : Word32} (h : FrameInv s)
    (hlegal : configLegal s.cfg = true) (hdoes : CommandDoes s opcode op t) : FrameInv t := by
  cases hdoes with
  | answers _ _ _ _ | faults _ _ _ _ _ => exact frameInv_of_kept h ⟨rfl, rfl, rfl⟩
  | inits _ _ _ => exact frameInv_initSession h op
  | acquiresFound p _ _ _ _ =>
    rw [acquireFound_eq]
    exact frameInv_of_kept h ⟨rfl, rfl, rfl⟩
  | acquiresOpened p _ _ _ _ =>
    rw [acquireOpened_eq]
    exact frameInv_of_kept h ⟨rfl, rfl, rfl⟩
  | acquireFails _ hrefused =>
    rw [acquireFails_eq hrefused]
    exact frameInv_of_kept h ⟨rfl, rfl, rfl⟩
  | releases _ _ _ =>
    rw [releasePort_eq]
    exact frameInv_of_kept h ⟨rfl, rfl, rfl⟩
  | ticks _ mask u _ _ _ htick =>
    have htimed : FrameInv { s with now := op } := frameInv_of_kept h ⟨rfl, rfl, rfl⟩
    exact frameInv_of_kept (frameInv_tickDoes (frameInv_tickRefresh htimed hlegal) htick) ⟨rfl, rfl, rfl⟩

/-- The rows of the bench port keep it too: of them, only the composes and BEGIN_SEND write a buffer. -/
theorem frameInv_exec_of_not_host {cfg : Config} {i : Instr} {s t : State} (h : FrameInv s)
    (hlegal : configLegal s.cfg = true) (hrow : isHostCode (encode cfg i) = false) (hexec : exec i s = .next t) :
    FrameInv t := by
  cases i with
  | init _ | acquire _ | release _ | tick _ | queryBaud _ | obsRead _ => cases hrow
  | reqGps => cases hexec; exact frameInv_beginSend h .gps
  | reqEam => cases hexec; exact frameInv_beginSend h .eam
  | reqBinOther _ | reqOther _ _ => cases hexec; exact h
  | respGps => cases hexec; exact frameInv_refreshKind h hlegal .gps _
  | respEam => cases hexec; exact frameInv_refreshKind h hlegal .eam _
  | refresh => cases hexec; exact frameInv_refresh h hlegal
  | detect =>
    obtain rfl | rfl := exec_detect_next hexec
    · exact h
    · exact frameInv_of_kept h (detect_framesKept s)
  | beginSend k => cases hexec; exact frameInv_beginSend h k
  | advance =>
    obtain rfl | rfl := exec_advance_next hexec
    · exact h
    · exact frameInv_of_kept h (advance_framesKept s)
  | switchTx => cases hexec; exact frameInv_of_kept h ⟨rfl, rfl, rfl⟩
  | switchRx =>
    cases hexec
    rw [switchRx_eq]
    exact frameInv_of_kept h ⟨rfl, rfl, rfl⟩
  | discardRx r =>
    cases hexec
    rw [discardRx_eq]
    exact frameInv_of_kept h ⟨rfl, rfl, rfl⟩

/-- Settles O54: the bench port's rows included; a step taken at all has a legal configuration. -/
theorem everyStepKeepsTheFrames : Obligations.EveryStepKeepsTheFrames := by
  intro s t h hstep
  obtain ⟨hlegal, _⟩ := step_cases s t hstep
  have htaken (rest : List Input) : FrameInv { s with inputs := rest } := frameInv_of_kept h ⟨rfl, rfl, rfl⟩
  cases stepDoes_of_step hstep with
  | idles => exact h
  | resets rest _ => exact frameInv_resetBlock _
  | acts a rest _ =>
    rw [applyAgent_frame]
    exact frameInv_of_kept (htaken rest) ⟨rfl, rfl, rfl⟩
  | commands opcode op rest _ _ hdoes => exact frameInv_commandDoes (htaken rest) hlegal hdoes
  | runsRow i rest _ _ hrow hexec => exact frameInv_exec_of_not_host (htaken rest) hlegal hrow hexec

/-- Settles O52: a cleared block is a session, sends nothing and holds zero frames. -/
theorem resetMeetsTheInvariants : Obligations.ResetMeetsTheInvariants := by
  have hcleared : ResetBlock State.reset := resetBlock_reset ▸ resetBlock_clears State.reset
  exact ⟨sessionInv_of_cleared hcleared (by decide) rfl (Nat.zero_le _), checksumInv_of_idle rfl,
    resetBlock_reset ▸ frameInv_resetBlock State.reset⟩

end Sys2Proof
end

section
/-! PROOFS. The request and the send it starts: Table Q's rows (spec/30_encoding.md section 2), the tick that
consumes a settled poll (spec/43_request_detector.md R180), BEGIN_SEND's rows (spec/44_frame_transmitter.md
R190), and the ticks that carry a send to its end (R196, R197). -/

namespace Sys2Proof

open Sys2Proof.Machine

/-! ### The rows of Table Q -/

/-- Settles O49: Table Q gives the two rows no action. -/
theorem ignoredRequestRowsDoNothing : Obligations.IgnoredRequestRowsDoNothing :=
  fun _ _ _ => ⟨rfl, rfl⟩

/-- Settles O47: each row outside its "only when" (log 8), and the cursor that is not sound (log 9). -/
theorem subOperationsOutsideTheirCondition : Obligations.SubOperationsOutsideTheirCondition := by
  intro s
  refine ⟨fun hsend => ?_, fun hidle => ?_, fun hsend hexcluded => ?_⟩
  · change execDetect s = _
    rw [execDetect, if_pos hsend]
  · change execAdvance s = _
    rw [execAdvance, if_pos (by simp [hidle])]
  · have hunsound : ¬ cursorSound s = true := by
      rw [cursorSound_iff]
      rintro ⟨hnonzero, hoffset⟩
      obtain hzero | ⟨hmore, hpast⟩ := hexcluded
      · exact hnonzero hzero
      · exact BitVec.not_le.mpr (hoffset hmore) hpast
    change execAdvance s = _
    rw [execAdvance, if_neg (by simp [hsend]), if_neg hunsound]

/-- Settles O43: the two request rows are BEGIN_SEND of their kind (Table Q). -/
theorem beginSendCreatesTheCursor : Obligations.BeginSendCreatesTheCursor := by
  intro s k i hidle hrow
  have hexec : exec i s = .next (beginSend k s) := by
    obtain rfl | ⟨rfl, rfl⟩ | ⟨rfl, rfl⟩ := hrow <;> rfl
  rw [hexec, beginSend_idle k s hidle, kindByte_eq_kindCode]

/-- The row that two request bytes decode to does what DETECT's classification of them asks for: BEGIN_SEND of
the kind, or nothing (R83, R176). -/
theorem exec_decodeRequest (cfg : Config) (requestId address : Byte) (s : State) :
    exec (decodeRequest cfg requestId address) s =
      match classify cfg requestId address with
      | none => .next s
      | some k => .next (beginSend k s) := by
  unfold decodeRequest classify
  by_cases hid : requestId = cfg.binaryModeId
  · by_cases hgps : address = cfg.gpsAddr
    · simp only [hid, hgps, and_self, if_true]
      rfl
    · by_cases heam : address = cfg.eamAddr
      · have hne : cfg.eamAddr ≠ cfg.gpsAddr := fun h => hgps (heam.trans h)
        simp only [hid, heam, hne, and_self, and_false, if_true, if_false]
        rfl
      · simp only [hid, hgps, heam, and_false, if_true, if_false]
        rfl
  · simp only [hid, false_and, if_false]
    rfl

/-- Settles O29: the kind DETECT returned is the classification that `exec_decodeRequest` speaks of. -/
theorem consumptionRunsTheRequestRow : Obligations.ConsumptionRunsTheRequestRow := by
  intro s requestId address hidle harmed hfifo hsettled
  have hdetected : (detect s).detected = classify s.cfg requestId address := by
    rw [detect_consume s requestId address hfifo harmed (BitVec.not_lt.mpr hsettled)]
  have hrow := exec_decodeRequest s.cfg requestId address (detect s)
  rw [← hdetected] at hrow
  cases hkind : (detect s).detected with
  | none =>
    rw [hkind] at hrow
    exact ⟨detect s, detect s, _, exec_detect_idle hidle, decode_requestWord _ _ _, hrow, fun _ => rfl,
      fun k hk => by simp [hkind] at hk⟩
  | some k =>
    rw [hkind] at hrow
    refine ⟨detect s, beginSend k (detect s), _, exec_detect_idle hidle, decode_requestWord _ _ _, hrow,
      fun hnone => by simp [hkind] at hnone, fun k' hk' => ?_⟩
    obtain rfl : k = k' := Option.some.inj (hkind.symm.trans hk')
    exact exec_beginSend k _

/-! ### The tick that consumes a settled poll -/

theorem classify_poll {cfg : Config} (hlegal : configLegal cfg = true) (k : FrameKind) :
    classify cfg cfg.binaryModeId (pollAddress cfg k) = some k := by
  have hne := configLegal_addresses cfg hlegal
  cases k with
  | gps => simp [classify, pollAddress]
  | eam => simp [classify, pollAddress, hne.symm]

/-- Step 2 of a tick over a settled poll: DETECT's consumption and BEGIN_SEND's cursor (R175, R190). -/
theorem tickDetect_poll {s : State} (k : FrameKind) (hlegal : configLegal s.cfg = true)
    (hidle : s.sendActive = false) (harmed : s.winArmed = true)
    (hfifo : s.provider.rxFifo = [s.cfg.binaryModeId, pollAddress s.cfg k])
    (hsettled : s.cfg.settleUs ≤ s.now - s.winT0) :
    tickDetect s = { s with
      detected := some k, winArmed := false
      mem := swapIn s.cfg k s.mem
      sendActive := true, curFrame := k, curOffset := 0#8
      curRemaining := frameLen s.cfg k + 1#8, cksum := 0#8
      portMode := .tx, tLastTx := s.now
      provider := providerSetMode s.cfg.providerDrainsTx s.portHandle .tx { s.provider with rxFifo := [] }
      trace := s.trace ++
        [{ name := .consume, a := s.cfg.binaryModeId, b := pollAddress s.cfg k, t := s.now },
         { name := .beginSend, a := kindCode k, b := 0x00#8, t := s.now },
         { name := .mode, a := 0x01#8, b := 0x00#8, t := s.now }] } := by
  have hdetect := detect_consume s _ _ hfifo harmed (BitVec.not_lt.mpr hsettled)
  rw [classify_poll hlegal k] at hdetect
  have hkind : (detect s).detected = some k := by rw [hdetect]
  rw [tickDetect_some s k hidle hkind, beginSend_idle k _ ((detect_sendKept s).sendActive.trans hidle), hdetect]
  simp [kindByte_eq_kindCode]

/-- Settles O28: no refresh is due, step 2 begins the send, and its byte gate is shut. -/
theorem settledRequestStartsItsSend : Obligations.SettledRequestStartsItsSend := by
  intro s now k hlegal hfault hinit hheld hidle harmed hfifo hsettled hnotDue
  let timed : State := { s with now := now }
  have hrefresh : tickRefresh timed = timed :=
    if_neg (mt (refreshDue_iff timed).mp (BitVec.not_le.mpr hnotDue))
  have hdue : refreshDue timed = false :=
    Bool.eq_false_iff.mpr (mt (refreshDue_iff timed).mp (BitVec.not_le.mpr hnotDue))
  have hpoll := tickDetect_poll (s := timed) k hlegal hidle harmed hfifo hsettled
  have hshut : tickWrites (tickDetect timed) = false := by
    have hgate := interByte_pos s.cfg hlegal
    rw [hpoll, Bool.eq_false_iff, ne_eq, tickWrites_iff]
    simpa [timed] using hgate
  have hbegins : tickBegins timed = true := by
    rw [tickBegins_eq, hpoll]
    simp [timed, hidle]
  rw [execTick_checked s now hfault hinit hheld, tickBody_quiet timed (by rw [hrefresh]; exact hshut), hrefresh,
    hdue, hbegins, hpoll]
  simp only [timed, hidle]
  rfl

/-! ### The ticks that carry a send to its end -/

/-- Outside `LITERAL` a refresh writes no byte of the frame being sent (R110, R196). -/
theorem rd_refreshKind_sending {s : State} (k : FrameKind) (v : Snapshot) (hsend : s.sendActive = true)
    (hpolicy : s.cfg.refreshPolicy ≠ .literal) (i : Byte) :
    rd (refreshKind k v s).mem (.frame s.curFrame) i = rd s.mem (.frame s.curFrame) i := by
  rw [refreshKind_mem]
  split_ifs with hwrites
  · refine rd_compose_other _ _ _ _ _ _ _ fun htarget => ?_
    have hmay := (refreshWrites_iff s k).mp hwrites
    rw [refreshTarget_eq] at htarget
    split_ifs at htarget with hdouble
    obtain rfl : s.curFrame = k := Buf.frame.inj htarget
    have hgate : s.cfg.refreshPolicy = .gate := by
      cases hp : s.cfg.refreshPolicy <;> simp_all
    exact hmay hgate ⟨hsend, rfl⟩
  · rfl

theorem rd_refresh_sending {s : State} (hsend : s.sendActive = true) (hpolicy : s.cfg.refreshPolicy ≠ .literal)
    (i : Byte) : rd (refresh s).mem (.frame s.curFrame) i = rd s.mem (.frame s.curFrame) i := by
  obtain ⟨m, hm⟩ : ∃ m, refreshKind .gps s.snapshot s = { s with mem := m } := ⟨_, refreshKind_eq ..⟩
  have hgps := rd_refreshKind_sending .gps s.snapshot hsend hpolicy i
  have heam := rd_refreshKind_sending (s := { s with mem := m }) .eam s.snapshot hsend hpolicy i
  rw [hm] at hgps
  rw [refresh_eq, hm]
  exact heam.trans hgps

theorem rd_tickRefresh_sending {s : State} (hsend : s.sendActive = true)
    (hpolicy : s.cfg.refreshPolicy ≠ .literal) (i : Byte) :
    rd (tickRefresh s).mem (.frame s.curFrame) i = rd s.mem (.frame s.curFrame) i := by
  unfold tickRefresh
  split
  · exact rd_refresh_sending hsend hpolicy i
  · rfl

/-- The bytes still to send are the same where the frame's bytes are. -/
theorem frameBytes_congr {m m' : Mem} {k : FrameKind} (hsame : ∀ i, rd m' (.frame k) i = rd m (.frame k) i)
    (i n : Nat) : frameBytes m' k i n = frameBytes m k i n := by
  simp only [frameBytes, hsame]

/-- A tick whose byte gate is open during a send is its refresh and one ADVANCE (R216, R217). -/
theorem step_sending_tick {s : State} {now : Word32} {rest : List Input} (h : SessionInv s) (hfault : s.fault = 0#8)
    (hsend : s.sendActive = true) (hgate : s.cfg.interByteUs ≤ now - s.tLastTx)
    (hinputs : s.inputs = .code (hostWord 0x04#8 now) :: rest) :
    ∃ mask, step s =
      .next (answer .ok mask (advance (tickRefresh { s with inputs := rest, now := now }))) := by
  let timed : State := { s with inputs := rest, now := now }
  have hheld := h.sendHeld hsend
  have hsession : SessionInv (tickRefresh timed) :=
    sessionInv_tickRefresh (sessionInv_setNow (sessionInv_takeInput h hinputs) now)
  have hactive : (tickRefresh timed).sendActive = true := (tickRefresh_cursor timed).1.trans hsend
  have hopen : tickWrites (tickRefresh timed) = true := by
    rw [tickWrites_iff, tickRefresh_eq]
    exact ⟨hsend, hgate⟩
  have hsound : cursorSound (tickRefresh timed) = true :=
    (cursorSound_iff _).mpr (cursorInFrame_of_session hsession hactive)
  have hbody := tickBody_byte timed (by rw [tickDetect_sending _ hactive]; exact hopen)
    (by rw [tickDetect_sending _ hactive]; exact hsound)
  rw [tickDetect_sending _ hactive] at hbody
  have htick := execTick_checked { s with inputs := rest } now hfault (h.heldInit hheld) hheld
  exact ⟨_, (step_host s 0x04#8 now rest h.legal hinputs).trans (htick.trans hbody)⟩

/-- From `s` to `t` a tick at `now` wrote the stored byte at the cursor and left `rest` to come. -/
structure WroteByte (now : Word32) (rest : List Input) (s t : State) : Prop where
  inputs : t.inputs = rest
  fault : t.fault = s.fault
  cfg : t.cfg = s.cfg
  sendActive : t.sendActive = s.sendActive
  curFrame : t.curFrame = s.curFrame
  tLastTx : t.tLastTx = now
  curOffset : t.curOffset = s.curOffset + 1#8
  curRemaining : t.curRemaining = s.curRemaining - 1#8
  frame : ∀ i, rd t.mem (.frame s.curFrame) i = rd s.mem (.frame s.curFrame) i
  cksum : t.cksum = s.cksum + rd s.mem (.frame s.curFrame) s.curOffset
  tx : t.provider.tx = s.provider.tx ++ [rd s.mem (.frame s.curFrame) s.curOffset]

theorem step_writes_byte {s : State} {now : Word32} {rest : List Input} (h : SessionInv s) (hfault : s.fault = 0#8)
    (hsend : s.sendActive = true) (hpolicy : s.cfg.refreshPolicy ≠ .literal) (hmore : s.curRemaining ≠ 1#8)
    (hgate : s.cfg.interByteUs ≤ now - s.tLastTx)
    (hinputs : s.inputs = .code (hostWord 0x04#8 now) :: rest) : ∃ t, step s = .next t ∧ WroteByte now rest s t := by
  obtain ⟨mask, hstep⟩ := step_sending_tick h hfault hsend hgate hinputs
  have hframe := rd_tickRefresh_sending (s := { s with inputs := rest, now := now }) hsend hpolicy
  have hmore' : (tickRefresh { s with inputs := rest, now := now }).curRemaining ≠ 1#8 := by
    rw [tickRefresh_eq]
    exact hmore
  refine ⟨_, hstep, ?_⟩
  rw [advance_byte _ hmore', tickRefresh_eq]
  exact {
    inputs := rfl
    fault := rfl
    cfg := rfl
    sendActive := rfl
    curFrame := rfl
    tLastTx := rfl
    curOffset := rfl
    curRemaining := rfl
    frame := hframe
    cksum := congrArg (s.cksum + ·) (hframe s.curOffset)
    tx := congrArg (s.provider.tx ++ [·]) (hframe s.curOffset) }

/-- From `s` to `t` the send ended with `bytes` transmitted, the port in receive mode, the FIFO empty, and
`rest` left to come. -/
structure SendEnded (bytes : List Byte) (rest : List Input) (s t : State) : Prop where
  inputs : t.inputs = rest
  sendActive : t.sendActive = false
  portMode : t.portMode = .rx
  rxFifo : t.provider.rxFifo = []
  tx : t.provider.tx = s.provider.tx ++ bytes

theorem step_writes_checksum {s : State} {now : Word32} {rest : List Input} (h : SessionInv s)
    (hfault : s.fault = 0#8) (hsend : s.sendActive = true) (hlast : s.curRemaining = 1#8)
    (hgate : s.cfg.interByteUs ≤ now - s.tLastTx)
    (hinputs : s.inputs = .code (hostWord 0x04#8 now) :: rest) :
    ∃ t, step s = .next t ∧ SendEnded [s.cksum] rest s t := by
  obtain ⟨mask, hstep⟩ := step_sending_tick h hfault hsend hgate hinputs
  have hlast' : (tickRefresh { s with inputs := rest, now := now }).curRemaining = 1#8 := by
    rw [tickRefresh_eq]
    exact hlast
  refine ⟨_, hstep, ?_⟩
  rw [advance_last _ hlast', tickRefresh_eq]
  exact ⟨rfl, rfl, rfl, rfl, rfl⟩

/-- What is left to transmit: `n` stored bytes from offset `i` and the checksum, `c` being the sum so far. -/
def remainingBytes (m : Mem) (k : FrameKind) (c : Byte) (i n : Nat) : List Byte :=
  frameBytes m k i n ++ [c + sumBytes (frameBytes m k i n)]

theorem remainingBytes_zero (m : Mem) (k : FrameKind) (c : Byte) (i : Nat) : remainingBytes m k c i 0 = [c] := by
  simp [remainingBytes, frameBytes, sumBytes]

theorem remainingBytes_succ (m : Mem) (k : FrameKind) (c : Byte) (i : Byte) (n : Nat) :
    remainingBytes m k c i.toNat (n + 1) =
      rd m (.frame k) i :: remainingBytes m k (c + rd m (.frame k) i) (i.toNat + 1) n := by
  have hi : BitVec.ofNat 8 i.toNat = i := by simp
  rw [remainingBytes, remainingBytes, frameBytes_succ, sumBytes_cons, hi, ← BitVec.add_assoc, List.cons_append]

theorem tickInputs_cons (now : Word32) (times : List Word32) :
    tickInputs (now :: times) = .code (hostWord 0x04#8 now) :: tickInputs times := rfl

/-- The run of spaced ticks, by induction on their times: each but the last writes a byte (R196, R197). -/
theorem run_completes_send {s : State} {times : List Word32} {rest : List Input} (h : SessionInv s)
    (hfault : s.fault = 0#8) (hsend : s.sendActive = true) (hpolicy : s.cfg.refreshPolicy ≠ .literal)
    (hlength : times.length = s.curRemaining.toNat)
    (hspaced : spacedTicks s.cfg.interByteUs s.tLastTx times = true)
    (hinputs : s.inputs = tickInputs times ++ rest) :
    ∃ t, core.run times.length s = .next t ∧
      SendEnded (remainingBytes s.mem s.curFrame s.cksum s.curOffset.toNat (s.curRemaining.toNat - 1)) rest s t := by
  induction times generalizing s with
  | nil =>
    have hleft := h.cursorLeft hsend
    rw [← hlength] at hleft
    exact absurd hleft (by simp)
  | cons now times ih =>
    rw [spacedTicks, Bool.and_eq_true, decide_eq_true_eq] at hspaced
    obtain ⟨hgate, hspaced⟩ := hspaced
    rw [tickInputs_cons, List.cons_append] at hinputs
    by_cases hlast : s.curRemaining = 1#8
    · obtain ⟨t, hstep, hended⟩ := step_writes_checksum h hfault hsend hlast hgate hinputs
      have hone : s.curRemaining.toNat = 1 := by rw [hlast]; rfl
      obtain rfl : times = [] := by
        rw [hone, List.length_cons] at hlength
        exact List.length_eq_zero_iff.mp (by omega)
      refine ⟨t, core_run_succ core 0 s t hstep, ?_⟩
      rwa [hone, remainingBytes_zero]
    · obtain ⟨t, hstep, hwrote⟩ := step_writes_byte h hfault hsend hpolicy hlast hgate hinputs
      obtain ⟨hoffset, hremaining, htwo⟩ := cursor_step h hsend hlast
      rw [← hwrote.curOffset] at hoffset
      rw [← hwrote.curRemaining] at hremaining
      obtain ⟨u, hrun, hended⟩ := ih (everyStepKeepsTheSession s t h hstep) (hwrote.fault.trans hfault)
        (hwrote.sendActive.trans hsend) (hwrote.cfg ▸ hpolicy) (by rw [List.length_cons] at hlength; omega)
        (by rw [hwrote.cfg, hwrote.tLastTx]; exact hspaced) hwrote.inputs
      have hbytes : remainingBytes t.mem t.curFrame t.cksum t.curOffset.toNat (t.curRemaining.toNat - 1) =
          remainingBytes s.mem s.curFrame (s.cksum + rd s.mem (.frame s.curFrame) s.curOffset)
            (s.curOffset.toNat + 1) (s.curRemaining.toNat - 2) := by
        have hleft : t.curRemaining.toNat - 1 = s.curRemaining.toNat - 2 := by omega
        rw [hwrote.curFrame, hwrote.cksum, hoffset, hleft, remainingBytes, remainingBytes,
          frameBytes_congr hwrote.frame]
      refine ⟨u, (core_run_succ core _ s t hstep).trans hrun, { hended with tx := ?_ }⟩
      have hmore : s.curRemaining.toNat - 1 = (s.curRemaining.toNat - 2) + 1 := by omega
      rw [hended.tx, hwrote.tx, hbytes, hmore, remainingBytes_succ, List.append_assoc, List.singleton_append]

/-- Settles O59: `run_completes_send`, with the bytes and the checksum written out. -/
theorem spacedTicksCompleteTheSend : Obligations.SpacedTicksCompleteTheSend := by
  intro s times rest h hfault hsend hpolicy hlength hspaced hinputs
  obtain ⟨t, hrun, hended⟩ := run_completes_send h hfault hsend hpolicy hlength hspaced hinputs
  refine ⟨t, hrun, hended.inputs, hended.sendActive, hended.portMode, hended.rxFifo, ?_⟩
  rw [hended.tx, remainingBytes, List.append_assoc]

end Sys2Proof
end

section
/-! PROOFS. Field conversions and observation: the two coordinate sign modes (spec/41_frame_codec.md R113, R114)
and OBS_READ over Table O (spec/45_session_dispatcher.md R219). -/

namespace Sys2Proof

open Sys2Proof.Machine

/-! ### A coordinate's magnitude -/

/-- What is left of a magnitude below its whole degrees, in units of 1e-6 minute (R113). -/
def arcBelowDegree (m : Nat) : Nat := (m - m / degDivider * degDivider) * 6

/-- The value of `degMin` for a magnitude (R113). -/
def degMinOf (m : Nat) : Nat := m / degDivider * 100 + arcBelowDegree m / 1000000

/-- The value of `sec` for a magnitude (R113). -/
def secOf (m : Nat) : Nat := arcBelowDegree m % 1000000 / 100

theorem coordMagnitude_eq (v : Word32) :
    coordMagnitude v = { h := hemisphere v, dm := BitVec.ofNat 16 (degMinOf v.toInt.natAbs),
                         sc := BitVec.ofNat 16 (secOf v.toInt.natAbs) } := rfl

theorem natAbs_toInt_le (v : Word32) : v.toInt.natAbs ≤ 2147483648 := by
  have hlow := BitVec.le_toInt v
  have hhigh := BitVec.toInt_lt (x := v)
  omega

/-- Below one degree there are fewer than 60 minutes. -/
theorem arcBelowDegree_lt (m : Nat) : arcBelowDegree m < 60000000 := by
  unfold arcBelowDegree degDivider
  omega

/-- Both fields fit their 16 bits, so neither wraps (R113). -/
theorem coordFields_fit {m : Nat} (hm : m ≤ 2147483648) : degMinOf m ≤ 21459 ∧ secOf m ≤ 9999 := by
  have harc := arcBelowDegree_lt m
  unfold degMinOf secOf degDivider
  omega

theorem coordMagnitude_toNat (v : Word32) :
    (coordMagnitude v).dm.toNat = degMinOf v.toInt.natAbs ∧ (coordMagnitude v).sc.toNat = secOf v.toInt.natAbs := by
  obtain ⟨hdm, hsc⟩ := coordFields_fit (natAbs_toInt_le v)
  rw [coordMagnitude_eq]
  constructor <;> rw [BitVec.toNat_ofNat, Nat.mod_eq_of_lt (by omega)]

/-- Degrees and minutes share `degMin` as its hundreds and the rest (R113). -/
theorem degMinOf_parts (m : Nat) :
    degMinOf m / 100 = m / degDivider ∧ degMinOf m % 100 = arcBelowDegree m / 1000000 := by
  have harc := arcBelowDegree_lt m
  unfold degMinOf
  omega

/-- Settles O34: the parts of the two fields, each within its own range. -/
theorem coordFieldsRecoverTheCoordinate : Obligations.CoordFieldsRecoverTheCoordinate := by
  intro v
  obtain ⟨hdm, hsc⟩ := coordMagnitude_toNat v
  obtain ⟨hdeg, hmin⟩ := degMinOf_parts v.toInt.natAbs
  have harc := arcBelowDegree_lt v.toInt.natAbs
  have hmax := natAbs_toInt_le v
  simp only [hdm, hsc, hdeg, hmin]
  refine ⟨?_, ?_, ?_, rfl, ?_, ?_⟩ <;> simp only [secOf, arcBelowDegree, degDivider] at harc ⊢ <;> omega

/-! ### The signed fields -/

/-- `arcBelowDegree` of a signed coordinate, by truncating division (R114). -/
def signedArc (x : Int) : Int := (x - x.tdiv degDivider * degDivider) * 6

/-- `degMin` of a signed coordinate before it is cut to 16 bits (R114). -/
def signedDegMin (x : Int) : Int := x.tdiv degDivider * 100 + (signedArc x).tdiv 1000000

/-- `sec` of a signed coordinate before it is cut to 16 bits (R114). -/
def signedSec (x : Int) : Int := ((signedArc x).tmod 1000000).tdiv 100

theorem coordSignedTrunc_eq (v : Word32) :
    coordSignedTrunc v = { h := hemisphere v, dm := BitVec.ofInt 16 (signedDegMin v.toInt),
                           sc := BitVec.ofInt 16 (signedSec v.toInt) } := rfl

theorem signedArc_neg (x : Int) : signedArc (-x) = -signedArc x := by
  simp only [signedArc, Int.neg_tdiv]
  ring

/-- Truncating division carries the sign through both fields (R114). -/
theorem signedFields_neg (x : Int) : signedDegMin (-x) = -signedDegMin x ∧ signedSec (-x) = -signedSec x := by
  simp only [signedDegMin, signedSec, signedArc_neg, Int.neg_tdiv, Int.neg_tmod, and_true]
  ring

theorem signedArc_natCast (m : Nat) : signedArc m = arcBelowDegree m := by
  simp only [signedArc, arcBelowDegree, ← Int.ofNat_tdiv]
  push_cast [Nat.div_mul_le_self m degDivider]
  ring

/-- From 0 on the signed fields are the magnitude's. -/
theorem signedFields_natCast (m : Nat) : signedDegMin m = degMinOf m ∧ signedSec m = secOf m := by
  have hmin : (arcBelowDegree m : Int).tdiv 1000000 = ((arcBelowDegree m / 1000000 : Nat) : Int) :=
    (Int.ofNat_tdiv _ _).symm
  have hsec : ((arcBelowDegree m : Int).tmod 1000000).tdiv 100 = ((secOf m : Nat) : Int) := by
    rw [secOf, Int.ofNat_tdiv, Int.ofNat_tmod]
    rfl
  refine ⟨?_, ?_⟩
  · rw [signedDegMin, signedArc_natCast, hmin, ← Int.ofNat_tdiv, degMinOf]
    push_cast
    rfl
  · rw [signedSec, signedArc_natCast, hsec]

/-- Settles O35: a coordinate is its magnitude or the negation of it. -/
theorem coordSignModesCompared : Obligations.CoordSignModesCompared := by
  intro v
  obtain ⟨hdegMin, hsec⟩ := signedFields_natCast v.toInt.natAbs
  refine ⟨fun hnonneg => ?_, fun hneg => ?_⟩
  · have hv : v.toInt = (v.toInt.natAbs : Int) := by omega
    rw [coordSignedTrunc_eq, coordMagnitude_eq, hv, hdegMin, hsec, BitVec.ofInt_natCast, BitVec.ofInt_natCast,
      Int.natAbs_natCast]
  · have hv : v.toInt = -(v.toInt.natAbs : Int) := by omega
    obtain ⟨hdegMinNeg, hsecNeg⟩ := signedFields_neg v.toInt.natAbs
    rw [coordSignedTrunc_eq, coordMagnitude_eq, hv, hdegMinNeg, hsecNeg, hdegMin, hsec, BitVec.ofInt_neg,
      BitVec.ofInt_neg, BitVec.ofInt_natCast, BitVec.ofInt_natCast, Int.natAbs_neg, Int.natAbs_natCast]

/-! ### OBS_READ outside the fault state -/

theorem exec_obsRead_unlisted {s : State} {op : Word32} (hfault : s.fault = 0#8) (hop : op ≤ 0xFFFF#32)
    (hobserve : observe s op.toNat = none) : exec (.obsRead op) s = .next (answer .badIndex 0#32 s) := by
  change execObsRead op s = _
  rw [execObsRead, if_neg (not_not_intro ((operand_high_zero op).mpr hop)), operand_low op hop, hobserve]
  simp [hfault]

/-- The value of joined bit strings is that of digits in a mixed base. -/
theorem toNat_append_digits {m n : Nat} (x : BitVec m) (y : BitVec n) :
    (x ++ y).toNat = x.toNat * 2 ^ n + y.toNat := by
  rw [BitVec.toNat_append, ← Nat.shiftLeft_add_eq_or_of_lt y.isLt, Nat.shiftLeft_eq]

/-- A byte in a result's data field is extended with zeros (R219). -/
theorem zeros_append_byte (b : Byte) : (0#24 ++ b : BitVec 32) = b.setWidth 32 := by
  have hb := b.isLt
  apply BitVec.eq_of_toNat_eq
  rw [toNat_append_digits, BitVec.toNat_setWidth, Nat.mod_eq_of_lt (by omega)]
  simp

/-- The STATUS word with its flag byte written out bit by bit (Table O, index 0x0000). -/
theorem statusWord_bits (s : State) :
    (s.cksum ++ s.curRemaining ++ s.curOffset ++ bitOfKind s.curFrame ++ BitVec.ofBool s.sendActive ++
      BitVec.ofBool s.winArmed ++ modeBit s.savedMode ++ modeBit s.portMode ++ BitVec.ofBool s.portShared ++
      BitVec.ofBool s.portAcquired ++ BitVec.ofBool s.initDone : BitVec 32) = statusWord s := by
  apply BitVec.eq_of_toNat_eq
  rw [statusWord, statusFlags]
  simp only [toNat_append_digits]
  ring

/-- Past the registers and outside the four buffers Table O has no index. -/
theorem observe_unlisted {s : State} {i : Nat} (hpast : 8 < i)
    (hnone : ∀ b, ¬ (bufBase b ≤ i ∧ i < bufBase b + (frameLen s.cfg (bufKind b)).toNat)) :
    observe s i = none := by
  rw [observe_past_registers s hpast]
  simp only [observeBuf_none s _ i (hnone _), Option.or_none]

/-- An index of 16 bits is its own operand. -/
theorem index_operand {i : Nat} (hi : i ≤ 0xFFFF) :
    (BitVec.ofNat 32 i).toNat = i ∧ BitVec.ofNat 32 i ≤ 0xFFFF#32 := by
  have hnat : (BitVec.ofNat 32 i).toNat = i := by
    rw [BitVec.toNat_ofNat, Nat.mod_eq_of_lt (by omega)]
  exact ⟨hnat, BitVec.le_def.mpr (by rw [hnat]; exact hi)⟩

theorem exec_obsRead_register {s : State} {op v : Word32} (hfault : s.fault = 0#8) (hop : op ≤ 0xFFFF#32)
    (hobserve : observe s op.toNat = some v) :
    exec (.obsRead op) s = .next { s with results := s.results ++ [(0x00#8 ++ v : BitVec 40)] } :=
  exec_obsRead_listed hfault hop hobserve

theorem exec_obsRead_buffer {s : State} (hfault : s.fault = 0#8) (b : Buf) (j : Byte)
    (hj : j < frameLen s.cfg (bufKind b)) :
    exec (.obsRead (BitVec.ofNat 32 (bufBase b + j.toNat))) s =
      .next { s with results := s.results ++ [(0x00#8 ++ 0#24 ++ rd s.mem b j : BitVec 40)] } := by
  obtain ⟨hnat, hop⟩ := bufferIndex_legal b j
  have hassoc : (0x00#8 ++ 0#24 ++ rd s.mem b j : BitVec 40) = 0x00#8 ++ (rd s.mem b j).setWidth 32 := by
    rw [← zeros_append_byte]
    exact BitVec.append_assoc
  rw [hassoc]
  exact exec_obsRead_register hfault hop (hnat.symm ▸ observe_buffer s b j hj)

/-- Settles O24: the nine registers one by one, then the four buffers, then no index at all. -/
theorem obsReadAnswersTableO : Obligations.ObsReadAnswersTableO := by
  intro s hfault
  refine ⟨?_, ?_, fun i hpast hi hgps heam hnextGps hnextEam => ?_⟩
  · have hstatus : observe s 0 = some _ := congrArg some (statusWord_bits s).symm
    have hfaultIndex : observe s 1 = some _ := congrArg some (zeros_append_byte s.fault).symm
    simp only [List.forall_mem_cons, List.not_mem_nil, false_imp_iff, implies_true, and_true]
    refine ⟨exec_obsRead_register hfault (by decide) hstatus,
      exec_obsRead_register hfault (by decide) hfaultIndex, ?_, ?_, ?_, ?_, ?_, ?_, ?_⟩ <;>
      exact exec_obsRead_register hfault (by decide) rfl
  · simp only [List.forall_mem_cons, List.not_mem_nil, false_imp_iff, implies_true, and_true]
    exact ⟨exec_obsRead_buffer hfault (.frame .gps), exec_obsRead_buffer hfault (.frame .eam),
      exec_obsRead_buffer hfault (.next .gps), exec_obsRead_buffer hfault (.next .eam)⟩
  · obtain ⟨hnat, hop⟩ := index_operand hi
    have hnone : observe s i = none := observe_unlisted hpast fun b => by
      rcases b with ⟨⟨⟩⟩ | ⟨⟨⟩⟩
      exacts [hgps, heam, hnextGps, hnextEam]
    exact exec_obsRead_unlisted hfault hop (hnat.symm ▸ hnone)

end Sys2Proof
end
